-- ==== Sys2Proof/Word.lean ====
section
/-! DEFINITION. The word types of the core (00_scope.md R5, R8): names of bit-vector widths only. -/

namespace Sys2Proof

/-- A byte of memory. -/
abbrev Byte := BitVec 8

/-- A 32-bit word: an instruction word or a 32-bit CP0 register. -/
abbrev Word := BitVec 32

/-- A 64-bit value: a general register, HI, LO, pc, a virtual address or a 64-bit CP0 register (R8). -/
abbrev DWord := BitVec 64

/-- A physical address, 36 bits (R5, 20_memory.md R100). -/
abbrev PAddr := BitVec 36

/-- The number of a general register or of a CP0 register: a 5-bit field, every value valid
(30_encoding.md R153). -/
abbrev RegNum := BitVec 5

end Sys2Proof
end

