-- ==== Sys2Proof/Config.lean ====
section
/-! DEFINITION. What the spec leaves to whoever constructs the core (00_scope.md R5) and to what stands
behind its bus (20_memory.md R102 to R106). The parameters with a default that the spec names, TLB_SIZE
and COUNT_INCREMENT, are held in the machine's state, so that a statement about every state holds for
every value of them; here stand their defaults. The constants without a body are uninterpreted: no proof
can learn a value of theirs. -/

namespace Sys2Proof

/-- The default of the parameter `TLB_SIZE` (00 R5). -/
def Config.defaultTlbSize : Nat := 64

/-- The default of the parameter `COUNT_INCREMENT` (00 R5). -/
def Config.defaultCountIncrement : Word := 1#32

/-- The low half of the parameter `PRID`, whose bits 31:16 are zero (00 R5; 10 R62; log entry 2). -/
opaque Config.prid16 : BitVec 16

/-- The divide instruction that a zero divisor is met in (41 R261). -/
inductive DivOp where
  | div
  | divu
  | ddiv
  | ddivu
  deriving DecidableEq, Repr

/-- The parameter `DIV0`: what HI and LO, in this order, hold after a division by zero, a total function
of the mnemonic and the 64-bit dividend register, about which nothing else is assumed (41 R261; log
entry 3). -/
opaque Config.div0 : DivOp → DWord → DWord × DWord

/-- The size of a bus access: 8, 16, 32 or 64 bits (20 R102). -/
inductive Width where
  | byte
  | half
  | word
  | dword
  deriving DecidableEq, Repr

/-- What the core asks of the bus: the primitives of 20 R102. -/
inductive BusRequest where
  /-- `fetch32(pa)` -/
  | fetch (pa : PAddr)
  /-- `read_N(pa)` -/
  | read (pa : PAddr) (w : Width)
  /-- `write_N(pa, value)`, the value in the low bits -/
  | write (pa : PAddr) (w : Width) (value : DWord)
  deriving DecidableEq, Repr

/-- What the bus answers (20 R102, R104). The value of a read stands in the low bits; a write that
succeeds answers `ok`, and its value is not used. -/
inductive BusAnswer where
  | ok (value : DWord)
  | unmapped
  | deviceMisaligned
  deriving DecidableEq, Repr, Inhabited

/-- What stands behind a range of physical addresses: plain memory, nothing, or a device that takes
accesses of the sizes it lists (20 R102, R104, R105, R132). -/
inductive RegionKind where
  /-- Byte-addressed memory, which answers every access with Ok. -/
  | memory
  /-- No memory and no device: every access is answered with Unmapped. -/
  | unmapped
  /-- A device: DeviceMisaligned for a size it does not take, else whatever the device answers. -/
  | device (accepts : List Width)
  deriving DecidableEq, Repr

/-- A range of physical addresses and what stands behind it. -/
structure Region where
  base : Nat
  size : Nat
  kind : RegionKind
  deriving DecidableEq, Repr

/-- The answer of a device to the `n`-th access made to a device window: an oracle, which may answer two
equal requests differently (20 R105, R125; log entry 6). -/
opaque Config.deviceAnswer : Nat → BusRequest → BusAnswer

end Sys2Proof
end

