-- ==== Sys2Proof/Machine/Bits.lean ====
section
/-! DEFINITION. Bit fields, sign extension and widths (00_scope.md R7, R8). -/

namespace Sys2Proof.Machine

/-- `w[lo+len-1:lo]` as a number of `len` bits (R7). -/
def getField {n : Nat} (w : BitVec n) (lo len : Nat) : BitVec len := w.extractLsb' lo len

/-- `w` with its bits `lo+len-1:lo` replaced by `v`. -/
def setField {n len : Nat} (w : BitVec n) (lo : Nat) (v : BitVec len) : BitVec n :=
  (w &&& ~~~((BitVec.allOnes len).setWidth n <<< lo)) ||| (v.setWidth n <<< lo)

/-- A field one bit wide as a Bool. -/
def bitAt {n : Nat} (w : BitVec n) (i : Nat) : Bool := w.getLsbD i

/-- One bit as a field. -/
def bit (b : Bool) : BitVec 1 := BitVec.ofBool b

/-- `sext_8`, `sext_16`, `sext_32`: sign extension to 64 bits (R8). -/
def sext {n : Nat} (v : BitVec n) : DWord := v.signExtend 64

/-- `zext_8`, `zext_16`, `zext_32`: zero extension to 64 bits (R8). -/
def zext {n : Nat} (v : BitVec n) : DWord := v.setWidth 64

/-- Bits 31:0 of a 64-bit value. -/
def lowWord (v : DWord) : Word := v.setWidth 32

/-- The number of ones in a bit vector. -/
def popcount {n : Nat} (w : BitVec n) : Nat :=
  ((List.range n).filter (fun i => w.getLsbD i)).length

/-- The number of bytes of an access (20 R123). -/
def widthBytes : Width → Nat
  | .byte => 1
  | .half => 2
  | .word => 4
  | .dword => 8

end Sys2Proof.Machine
end

