-- ==== Sys2Proof/Machine/Flags.lean ====
section
/-! DEFINITION. The core has no flags (10_state.md R28). What other machines keep in flags is computed
here: signed overflow, which raises an exception (40_alu.md R202), and the truth value that SLT and its
kin write. -/

namespace Sys2Proof.Machine

/-- Whether an exact result does not fit in `n` signed bits (40 R202). -/
def overflows (n : Nat) (r : Int) : Bool := decide (r < -2 ^ (n - 1)) || decide (2 ^ (n - 1) - 1 < r)

/-- The value that SLT, SLTU, SLTI and SLTIU write (40 R215). -/
def truthValue (b : Bool) : DWord := if b then 1#64 else 0#64

end Sys2Proof.Machine
end

