-- ==== Sys2Proof/Machine/State.lean ====
section
/-! DEFINITION. The state of the machine (10_state.md), the state after reset (70_reset_and_hazards.md
R500), the reasons a step can stop, and the exceptions and control-flow outcomes that the pseudocode of
the spec passes around. -/

namespace Sys2Proof.Machine

/-- Why a step stops with a fault: there is no reason. "No guest action can make the core fail at host
level: every error is a guest-visible exception" (70 R522, R523), and the machine takes every exception.
No meaning raises a fault, so none is safe or unsafe. -/
inductive Fault where
  deriving DecidableEq, Repr

/-- Why a step is refused. -/
inductive Refusal where
  /-- Raised by an arm of `exec` that has no meaning yet, with the mnemonic of its instruction. Safe: the
  machine stops where the hardware goes on. No arm raises it now. -/
  | notModelled (mnemonic : String)
  deriving DecidableEq, Repr

/-- The CP0 registers that hold a value, each at its width in the map of 10 R39. PRId is the constant
`Config.prid16`; the other slots of the map read 0 and hold nothing (10 R62, R68). -/
structure Cp0 where
  index : Word
  random : Word
  entryLo0 : DWord
  entryLo1 : DWord
  context : DWord
  pageMask : Word
  wired : Word
  badVAddr : DWord
  count : Word
  entryHi : DWord
  compare : Word
  status : Word
  cause : Word
  epc : DWord
  config : Word
  llAddr : Word
  xContext : DWord
  tagLo : Word
  tagHi : Word
  errorEpc : DWord
  deriving DecidableEq, Repr

/-- One half of a TLB entry: the even or the odd page (10 R70). -/
structure TlbHalf where
  pfn : BitVec 24
  c : BitVec 3
  d : Bool
  v : Bool
  deriving DecidableEq, Repr

/-- An entry of the TLB (10 R70). -/
structure TlbEntry where
  present : Bool
  r : BitVec 2
  vpn2 : BitVec 27
  mask : BitVec 12
  asid : BitVec 8
  g : Bool
  even : TlbHalf
  odd : TlbHalf
  deriving DecidableEq, Repr

/-- Physical memory: the bytes that differ from what an unlisted address reads as, by strictly rising
address (`Memory.wf`). -/
abbrev Memory := List Host.Cell

/-- The state of the core and of what stands behind its bus. -/
structure State where
  /-- x[0] .. x[31] (10 R20). -/
  regs : Vector DWord 32
  /-- HI (10 R23). -/
  hi : DWord
  /-- LO (10 R23). -/
  lo : DWord
  /-- The address of the instruction that the next step executes (10 R24). -/
  pc : DWord
  /-- A taken branch retired in the previous step (10 R25). -/
  branchPending : Bool
  /-- The target of that branch (10 R25). -/
  branchTarget : DWord
  /-- The instruction at pc is the delay slot of a branch, taken or not (10 R25). -/
  inDelaySlot : Bool
  /-- LLbit (10 R27). -/
  llbit : Bool
  /-- The CP0 registers (10 R39). -/
  cp0 : Cp0
  /-- TLB[0] .. TLB[TLB_SIZE-1] (10 R70); the parameter TLB_SIZE is the number of its entries (00 R5; log
  entry 1). -/
  tlb : List TlbEntry
  /-- The parameter COUNT_INCREMENT (00 R5; log entry 1). -/
  countIncrement : Word
  /-- Physical memory (20 R101 to R103). -/
  mem : Memory
  /-- The map of the bus: the first region that holds an address says what stands there, and an address
  in none is plain memory (20 R132; log entry 5). -/
  bus : List Region
  /-- The model's own field: the number of the next access to a device window, which makes its answer a
  fresh free value (log entry 6). -/
  busTick : Nat
  deriving DecidableEq, Repr

/-- What a step or a meaning answers. -/
abbrev Result := Host.Outcome State Fault Refusal

/-- The parameter TLB_SIZE (00 R5). -/
def State.tlbSize (s : State) : Nat := s.tlb.length

/-- The half of an entry with every field 0. -/
def TlbHalf.zero : TlbHalf := { pfn := 0, c := 0, d := false, v := false }

/-- An entry as reset leaves it: every field 0 (10 R71). -/
def TlbEntry.zero : TlbEntry :=
  { present := false, r := 0, vpn2 := 0, mask := 0, asid := 0, g := false,
    even := TlbHalf.zero, odd := TlbHalf.zero }

/-- The CP0 registers as reset leaves them (70 R500; 10 R39). -/
def Cp0.reset : Cp0 :=
  { index := 0, random := 0, entryLo0 := 0, entryLo1 := 0, context := 0, pageMask := 0, wired := 0,
    badVAddr := 0, count := 0, entryHi := 0, compare := 0, status := 0x00400000#32, cause := 0,
    epc := 0, config := 0x00008000#32, llAddr := 0, xContext := 0, tagLo := 0, tagHi := 0,
    errorEpc := 0 }

/-- The core after reset (70 R500), with given parameters TLB_SIZE and COUNT_INCREMENT, memory and bus
map. -/
def State.resetWith (tlbSize : Nat) (countIncrement : Word) (mem : Memory) (bus : List Region)
    (busTick : Nat) : State :=
  { regs := Vector.replicate 32 0
    hi := 0
    lo := 0
    pc := 0xFFFFFFFFBFC00000#64
    branchPending := false
    branchTarget := 0
    inDelaySlot := false
    llbit := false
    cp0 := Cp0.reset
    tlb := List.replicate tlbSize TlbEntry.zero
    countIncrement := countIncrement
    mem := mem
    bus := bus
    busTick := busTick }

/-- The machine right after reset (70 R500): the core with the default parameters (00 R5), memory with
nothing listed and a bus map that makes the whole physical space memory (log entries 1, 4, 5). -/
def State.reset : State :=
  State.resetWith Config.defaultTlbSize Config.defaultCountIncrement [] [] 0

/-- An exception with the information its `raise` carries (00 R12; 60 R450). `va` is the bad virtual
address, `refill` tells a TLB Refill from a TLB Invalid, `z` is the coprocessor number. -/
inductive Exn where
  | interrupt
  | tlbModified (va : DWord)
  | tlbLoad (va : DWord) (refill : Bool)
  | tlbStore (va : DWord) (refill : Bool)
  | addressLoad (va : DWord)
  | addressStore (va : DWord)
  | busFetch (va : DWord)
  | busData (va : DWord)
  | syscall
  | breakpoint
  | reservedInstruction
  | coprocessorUnusable (z : BitVec 2)
  | overflow
  | trap
  deriving DecidableEq, Repr

/-- How an instruction hands control to the sequencer (00 R13; 10 R83). -/
inductive Flow where
  | sequential
  | branch (taken : Bool) (target : DWord)
  | branchLikely (taken : Bool) (target : DWord)
  | return (target : DWord)
  deriving DecidableEq, Repr

/-- What an access is for (20 R113). -/
inductive AccessKind where
  | fetch
  | load
  | store
  deriving DecidableEq, Repr

/-- What a read of memory gives: a value, in the low bits, or an exception; each with the state after the
access, which differs from the state before it only where a device was asked (20 R120). -/
inductive ReadResult where
  | ok (value : DWord) (s : State)
  | raised (e : Exn) (s : State)

/-- What a write of memory gives (20 R121; 43 R311, R331): the state with the bytes written, or an
exception with the bytes written before it. -/
inductive WriteResult where
  | ok (s : State)
  | raised (e : Exn) (s : State)

end Sys2Proof.Machine
end

