-- ==== Sys2Proof/Machine/Cp0.lean ====
section
/-! DEFINITION. The CP0 registers (10_state.md R39 to R68): the fields of Status, Cause, EntryHi and
PageMask that the machine uses, the mode predicates (60_exceptions.md R470 to R472), and the two accessors
CP0Read (R40) and CP0Write (R41). -/

namespace Sys2Proof.Machine

-- Status (10 R52).

/-- Status.IE, bit 0. -/
def Cp0.ie (c : Cp0) : Bool := bitAt c.status 0

/-- Status.EXL, bit 1. -/
def Cp0.exl (c : Cp0) : Bool := bitAt c.status 1

/-- Status.ERL, bit 2. -/
def Cp0.erl (c : Cp0) : Bool := bitAt c.status 2

/-- Status.KSU, bits 4:3. -/
def Cp0.ksu (c : Cp0) : BitVec 2 := getField c.status 3 2

/-- Status.IM, bits 15:8. -/
def Cp0.im (c : Cp0) : BitVec 8 := getField c.status 8 8

/-- Status.BEV, bit 22. -/
def Cp0.bev (c : Cp0) : Bool := bitAt c.status 22

/-- Status.CU0, bit 28. -/
def Cp0.cu0 (c : Cp0) : Bool := bitAt c.status 28

/-- The registers with Status.EXL set to `b`. -/
def Cp0.setExl (c : Cp0) (b : Bool) : Cp0 := { c with status := setField c.status 1 (bit b) }

-- Cause (10 R59).

/-- Cause.IP, bits 15:8. -/
def Cp0.ip (c : Cp0) : BitVec 8 := getField c.cause 8 8

/-- The registers with Cause.IP7, bit 15, set to `b`. -/
def Cp0.setIp7 (c : Cp0) (b : Bool) : Cp0 := { c with cause := setField c.cause 15 (bit b) }

-- The staging registers of the TLB (10 R42 to R50).

/-- The Index field of Index, bits 5:0. -/
def Cp0.indexField (c : Cp0) : Nat := (getField c.index 0 6).toNat

/-- The Random field of Random, bits 5:0. -/
def Cp0.randomField (c : Cp0) : Nat := (getField c.random 0 6).toNat

/-- The Wired field of Wired, bits 5:0. -/
def Cp0.wiredField (c : Cp0) : Nat := (getField c.wired 0 6).toNat

/-- PageMask.Mask, bits 24:13. -/
def Cp0.mask (c : Cp0) : BitVec 12 := getField c.pageMask 13 12

/-- EntryHi.R, bits 63:62. -/
def Cp0.region (c : Cp0) : BitVec 2 := getField c.entryHi 62 2

/-- EntryHi.VPN2, bits 39:13. -/
def Cp0.vpn2 (c : Cp0) : BitVec 27 := getField c.entryHi 13 27

/-- EntryHi.ASID, bits 7:0: the current address space (20 R114). -/
def Cp0.asid (c : Cp0) : BitVec 8 := getField c.entryHi 0 8

-- Modes (60 R470 to R472).

/-- `KernelMode()`. -/
def Cp0.kernelMode (c : Cp0) : Bool := c.exl || c.erl || c.ksu == 0#2

/-- `SupervisorMode()`. -/
def Cp0.supervisorMode (c : Cp0) : Bool := !c.kernelMode && c.ksu == 1#2

/-- `UserMode()`; KSU = 11 is treated as user mode. -/
def Cp0.userMode (c : Cp0) : Bool := !c.kernelMode && (c.ksu == 2#2 || c.ksu == 3#2)

/-- `CP0Usable()`. -/
def Cp0.usable (c : Cp0) : Bool := c.kernelMode || c.cu0

/-- `Enabled64()`. -/
def Cp0.enabled64 (c : Cp0) : Bool := c.kernelMode

/-- `InterruptReady()` (60 R475): IE, not EXL, not ERL, and a pending line that IM lets through. -/
def Cp0.interruptReady (c : Cp0) : Bool :=
  c.ie && !c.exl && !c.erl && decide (c.ip &&& c.im ≠ 0#8)

-- PageMask (10 R45).

/-- The legal values of PageMask.Mask, the largest first (10 R45). -/
def legalMasks : List (BitVec 12) :=
  [0xFFF#12, 0x3FF#12, 0x0FF#12, 0x03F#12, 0x00F#12, 0x003#12, 0x000#12]

/-- `legalize(m)`: the largest legal mask all of whose ones are ones of `m` (10 R45). -/
def legalize (m : BitVec 12) : BitVec 12 :=
  (legalMasks.find? (fun l => l &&& ~~~m == 0#12)).getD 0#12

/-- PageMask with Mask = `m`: every other bit is 0 (R45). -/
def pageMaskOf (m : BitVec 12) : Word := setField 0#32 13 m

/-- EntryHi with the given R, VPN2 and ASID: every other bit is 0 (R50). -/
def entryHiOf (r : BitVec 2) (vpn2 : BitVec 27) (asid : BitVec 8) : DWord :=
  setField (setField (setField 0#64 62 r) 13 vpn2) 0 asid

/-- EntryLo with the given PFN, C, D, V and G: every other bit is 0 (R44). -/
def entryLoOf (h : TlbHalf) (g : Bool) : DWord :=
  setField (setField (setField (setField (setField 0#64 6 h.pfn) 3 h.c) 2 (bit h.d)) 1 (bit h.v)) 0
    (bit g)

/-- `CP0Read(n)` (R40): a 64-bit register as it is, a 32-bit one sign-extended; slots without storage
read 0 (R68). -/
def Cp0.read (c : Cp0) (n : RegNum) : DWord :=
  match n with
  | 0#5 => sext c.index
  | 1#5 => sext c.random
  | 2#5 => c.entryLo0
  | 3#5 => c.entryLo1
  | 4#5 => c.context
  | 5#5 => sext c.pageMask
  | 6#5 => sext c.wired
  | 8#5 => c.badVAddr
  | 9#5 => sext c.count
  | 10#5 => c.entryHi
  | 11#5 => sext c.compare
  | 12#5 => sext c.status
  | 13#5 => sext c.cause
  | 14#5 => c.epc
  | 15#5 => sext (Config.prid16.setWidth 32)
  | 16#5 => sext c.config
  | 17#5 => sext c.llAddr
  | 20#5 => c.xContext
  | 28#5 => sext c.tagLo
  | 29#5 => sext c.tagHi
  | 30#5 => c.errorEpc
  | _ => 0#64

/-- The write to Wired (R47): min(v[5:0], TLB_SIZE-1), and Random becomes TLB_SIZE-1. -/
def Cp0.writeWired (c : Cp0) (tlbSize : Nat) (v : DWord) : Cp0 :=
  { c with
    wired := BitVec.ofNat 32 (min (getField v 0 6).toNat (tlbSize - 1))
    random := BitVec.ofNat 32 (tlbSize - 1) }

/-- `CP0Write(n, v)` (R41), on a core with `tlbSize` TLB entries: each register keeps the fields its rule
lets software write; Random, BadVAddr, PRId and the slots without storage ignore the write (R43, R48, R62,
R68). -/
def Cp0.write (c : Cp0) (tlbSize : Nat) (n : RegNum) (v : DWord) : Cp0 :=
  match n with
  | 0#5 => { c with index := setField c.index 0 (getField v 0 6) }
  | 2#5 => { c with entryLo0 := zext (getField v 0 30) }
  | 3#5 => { c with entryLo1 := zext (getField v 0 30) }
  | 4#5 => { c with context := setField c.context 23 (getField v 23 41) }
  | 5#5 => { c with pageMask := pageMaskOf (legalize (getField v 13 12)) }
  | 6#5 => c.writeWired tlbSize v
  | 9#5 => { c with count := lowWord v }
  | 10#5 => { c with entryHi := entryHiOf (getField v 62 2) (getField v 13 27) (getField v 0 8) }
  | 11#5 => { c with compare := lowWord v }.setIp7 false
  | 12#5 => { c with status := lowWord v &&& 0x1047FF1F#32 }
  | 13#5 => { c with cause := setField c.cause 8 (getField v 8 2) }
  | 14#5 => { c with epc := v }
  | 16#5 => { c with config := setField 0x00008000#32 0 (getField v 0 3) }
  | 17#5 => { c with llAddr := lowWord v }
  | 20#5 => { c with xContext := setField c.xContext 33 (getField v 33 31) }
  | 28#5 => { c with tagLo := lowWord v }
  | 29#5 => { c with tagHi := lowWord v }
  | 30#5 => { c with errorEpc := v }
  | _ => c

/-- `Tick()` (60 R480): Count advances by COUNT_INCREMENT, and IP7 is set where Compare lies in
(old Count, new Count] modulo 2^32. -/
def Cp0.tick (c : Cp0) (countIncrement : Word) : Cp0 :=
  let distance := c.compare - c.count
  let c' := { c with count := c.count + countIncrement }
  if 1 ≤ distance.toNat ∧ distance.toNat ≤ countIncrement.toNat then c'.setIp7 true else c'

end Sys2Proof.Machine
end

