-- ==== Sys2Proof/Machine/Ops.lean ====
section
/-! DEFINITION. The operations that every meaning is built from: the register file, the sequencer
(10_state.md R84), taking an exception (60_exceptions.md R460), and the ways an instruction ends. -/

namespace Sys2Proof.Machine

-- General registers (10 R20; 00 R9).

/-- `x[i]`; x[0] reads 0. -/
def State.reg (s : State) (i : RegNum) : DWord :=
  if i = 0#5 then 0#64 else s.regs[i.toNat]'i.isLt

/-- `x[i] <- v`; a write to x[0] is discarded. -/
def State.setReg (s : State) (i : RegNum) (v : DWord) : State :=
  if i = 0#5 then s else { s with regs := s.regs.set i.toNat v i.isLt }

/-- `HI <- h; LO <- l`. -/
def State.setHiLo (s : State) (h l : DWord) : State := { s with hi := h, lo := l }

/-- The state with the CP0 registers replaced. -/
def State.setCp0 (s : State) (c : Cp0) : State := { s with cp0 := c }

/-- The state with LLbit replaced. -/
def State.setLlbit (s : State) (b : Bool) : State := { s with llbit := b }

/-- The state with slot `i` of the TLB replaced; the TLB keeps its size (10 R70). -/
def State.setTlb (s : State) (i : Nat) (e : TlbEntry) : State := { s with tlb := s.tlb.set i e }

-- The sequencer (10 R84).

/-- `Sequence(outcome)`: where control goes after an instruction that retired. -/
def sequence (f : Flow) (s : State) : State :=
  match f with
  | .return t => { s with pc := t, branchPending := false, inDelaySlot := false }
  | .sequential =>
    { s with
      pc := if s.branchPending then s.branchTarget else s.pc + 4
      branchPending := false
      inDelaySlot := false }
  | .branch taken t =>
    { s with
      pc := if s.branchPending then s.branchTarget else s.pc + 4
      branchPending := taken
      branchTarget := if taken then t else s.branchTarget
      inDelaySlot := true }
  | .branchLikely taken t =>
    { s with
      pc := if s.branchPending then s.branchTarget else if taken then s.pc + 4 else s.pc + 8
      branchPending := taken
      branchTarget := if taken then t else s.branchTarget
      inDelaySlot := taken }

-- Exceptions (60 R450, R460).

/-- The ExcCode of an exception (60 R450). -/
def Exn.code : Exn → BitVec 5
  | .interrupt => 0
  | .tlbModified _ => 1
  | .tlbLoad _ _ => 2
  | .tlbStore _ _ => 3
  | .addressLoad _ => 4
  | .addressStore _ => 5
  | .busFetch _ => 6
  | .busData _ => 7
  | .syscall => 8
  | .breakpoint => 9
  | .reservedInstruction => 10
  | .coprocessorUnusable _ => 11
  | .overflow => 12
  | .trap => 13

/-- The bad virtual address of an exception, for exactly those that write BadVAddr (60 R463). -/
def Exn.badVAddr : Exn → Option DWord
  | .tlbModified va => some va
  | .tlbLoad va _ => some va
  | .tlbStore va _ => some va
  | .addressLoad va => some va
  | .addressStore va => some va
  | .busFetch va => some va
  | .busData va => some va
  | .interrupt | .syscall | .breakpoint | .reservedInstruction | .coprocessorUnusable _ | .overflow
  | .trap => none

/-- The faulting address of a TLB exception, code 1, 2 or 3 (60 R464). -/
def Exn.tlbAddr : Exn → Option DWord
  | .tlbModified va => some va
  | .tlbLoad va _ => some va
  | .tlbStore va _ => some va
  | .addressLoad _ | .addressStore _ | .busFetch _ | .busData _ | .interrupt | .syscall | .breakpoint
  | .reservedInstruction | .coprocessorUnusable _ | .overflow | .trap => none

/-- Cause.CE of an exception: the coprocessor number of Coprocessor Unusable, else 0 (60 R460). -/
def Exn.ce : Exn → BitVec 2
  | .coprocessorUnusable z => z
  | .interrupt | .tlbModified _ | .tlbLoad _ _ | .tlbStore _ _ | .addressLoad _ | .addressStore _
  | .busFetch _ | .busData _ | .syscall | .breakpoint | .reservedInstruction | .overflow | .trap => 0

/-- Whether an exception is a TLB Refill (60 R450, R465). -/
def Exn.refill : Exn → Bool
  | .tlbLoad _ refill => refill
  | .tlbStore _ refill => refill
  | .interrupt | .tlbModified _ | .addressLoad _ | .addressStore _ | .busFetch _ | .busData _
  | .syscall | .breakpoint | .reservedInstruction | .coprocessorUnusable _ | .overflow | .trap => false

/-- Cause after entry (60 R460): ExcCode and CE always, BD only where EXL was 0. -/
def causeAfter (cause : Word) (e : Exn) (oldExl inDelaySlot : Bool) : Word :=
  let c := setField (setField cause 2 e.code) 28 e.ce
  if oldExl then c else setField c 31 (bit inDelaySlot)

/-- EPC after entry (60 R460, R462): unchanged where EXL was 1, else the instruction, or the branch where
the instruction is in a delay slot. -/
def epcAfter (epc pc : DWord) (oldExl inDelaySlot : Bool) : DWord :=
  if oldExl then epc else if inDelaySlot then pc - 4 else pc

/-- The registers that a TLB exception at `va` writes (60 R464): EntryHi.R and VPN2, Context.BadVPN2,
XContext.R and BadVPN2. -/
def Cp0.noteTlbFault (c : Cp0) (va : DWord) : Cp0 :=
  { c with
    entryHi := setField (setField c.entryHi 62 (getField va 62 2)) 13 (getField va 13 27)
    context := setField c.context 4 (getField va 13 19)
    xContext := setField (setField c.xContext 31 (getField va 62 2)) 4 (getField va 13 27) }

/-- The vector (60 R465): the base by Status.BEV, offset 0x000 for a TLB Refill with EXL = 0, else
0x180. -/
def vectorOf (bev oldExl : Bool) (e : Exn) : DWord :=
  (if bev then 0xFFFFFFFFBFC00200#64 else 0xFFFFFFFF80000000#64) +
    (if e.refill && !oldExl then 0x000#64 else 0x180#64)

/-- The CP0 registers after entry (60 R460). -/
def Cp0.enter (c : Cp0) (e : Exn) (pc : DWord) (inDelaySlot : Bool) : Cp0 :=
  let c1 : Cp0 :=
    { c with
      cause := causeAfter c.cause e c.exl inDelaySlot
      epc := epcAfter c.epc pc c.exl inDelaySlot
      badVAddr := e.badVAddr.getD c.badVAddr }
  let c2 := c1.setExl true
  match e.tlbAddr with
  | some va => c2.noteTlbFault va
  | none => c2

/-- `TakeException(E)` (60 R460). -/
def takeException (e : Exn) (s : State) : State :=
  { s with
    cp0 := s.cp0.enter e s.pc s.inDelaySlot
    pc := vectorOf s.cp0.bev s.cp0.exl e
    branchPending := false
    inDelaySlot := false }

/-- The return from an exception, the state and control flow of ERET (44 R372; 60 R467): EXL and LLbit
are cleared and control goes to EPC. -/
def returnFromException (s : State) : State :=
  sequence (.return s.cp0.epc) ((s.setCp0 (s.cp0.setExl false)).setLlbit false)

-- How an instruction ends (00 R12, R13; 10 R83 to R85).

/-- The instruction retires and control goes on in sequence. -/
def retire (s : State) : Result := .next (sequence .sequential s)

/-- The instruction ends with `Branch(taken, target)`. -/
def branch (taken : Bool) (target : DWord) (s : State) : Result :=
  .next (sequence (.branch taken target) s)

/-- The instruction ends with `BranchLikely(taken, target)`. -/
def branchLikely (taken : Bool) (target : DWord) (s : State) : Result :=
  .next (sequence (.branchLikely taken target) s)

/-- `raise E`: the step takes the exception; `s` is the state at the raise. -/
def raise (e : Exn) (s : State) : Result := .next (takeException e s)

/-- `Require64()` and then the instruction (00 R14; 30 R159, R162). -/
def require64 (s : State) (body : Result) : Result :=
  if s.cp0.enabled64 then body else raise .reservedInstruction s

/-- The decoder's check of the COP0 class and then the instruction (30 R159, R164). -/
def requireCp0 (s : State) (body : Result) : Result :=
  if s.cp0.usable then body else raise (.coprocessorUnusable 0) s

/-- A result followed by the step's `Tick()` (10 R86; 60 R480). -/
def thenTick : Result → Result
  | .next s => .next (s.setCp0 (s.cp0.tick s.countIncrement))
  | .fault r => .fault r
  | .refused r => .refused r

end Sys2Proof.Machine
end

