-- ==== Sys2Proof/Machine/Operands.lean ====
section
/-! DEFINITION. The operand forms (30_encoding.md R152, R153; 43_loadstore.md R310). -/

namespace Sys2Proof.Machine

/-- `simm`: the sign-extended immediate. -/
def simm (imm : BitVec 16) : DWord := sext imm

/-- `zimm`: the zero-extended immediate. -/
def zimm (imm : BitVec 16) : DWord := zext imm

/-- `uimm`: the immediate of LUI. -/
def uimm (imm : BitVec 16) : DWord := sext (imm ++ 0#16 : Word)

/-- `boff`: the displacement of a branch, `sext_18(imm ++ 00)`. -/
def boff (offset : BitVec 16) : DWord := sext (offset ++ 0#2 : BitVec 18)

/-- The target of a conditional branch: pc + 4 + boff (42 R285). -/
def branchTargetOf (s : State) (offset : BitVec 16) : DWord := s.pc + 4 + boff offset

/-- The target of J and JAL: bits 63:28 of the jump's own pc and the index (42 R281). -/
def jumpTargetOf (s : State) (index : BitVec 26) : DWord :=
  (s.pc &&& ~~~0x000000000FFFFFFF#64) ||| zext (index ++ 0#2 : BitVec 28)

/-- The link value, the address after the delay slot (42 R280). -/
def linkOf (s : State) : DWord := s.pc + 8

/-- The number of the link register x[31] (10 R22). -/
def linkReg : RegNum := 31#5

/-- The effective address of loads, stores and unaligned forms (43 R310). -/
def effAddr (s : State) (base : RegNum) (offset : BitVec 16) : DWord := s.reg base + simm offset

/-- The low word of a general register: what a 32-bit operation reads (40 R201). -/
def State.regLow (s : State) (i : RegNum) : Word := lowWord (s.reg i)

/-- The amount of a 32-bit variable shift, x[rs][4:0] (30 R153). -/
def shiftAmount32 (s : State) (rs : RegNum) : Nat := (getField (s.reg rs) 0 5).toNat

/-- The amount of a 64-bit variable shift, x[rs][5:0] (30 R153). -/
def shiftAmount64 (s : State) (rs : RegNum) : Nat := (getField (s.reg rs) 0 6).toNat

/-- The byte offset of an address inside its word or doubleword: ea[1:0] or ea[2:0] (43 §3). -/
def unitOffset (ea : DWord) (w : Width) : Nat := ea.toNat % widthBytes w

end Sys2Proof.Machine
end

