-- ==== Sys2Proof/Machine/Alu.lean ====
section
/-! DEFINITION. The meanings of the add, subtract, compare, logical and shift instructions (40_alu.md). -/

namespace Sys2Proof.Machine

-- The shapes of this family: where a result goes, and how a result that may overflow ends (40 R202, R242).

/-- The end of an instruction whose only effect is `x[rd] <- v`. -/
def retireReg (s : State) (rd : RegNum) (v : DWord) : Result := retire (s.setReg rd v)

/-- The end of a 32-bit operation with exact signed result `r`: Overflow where it does not fit in 32 bits,
else `x[rd] <- sext_32(r[31:0])` (40 R202, R203). -/
def retireExact32 (s : State) (rd : RegNum) (r : Int) : Result :=
  if overflows 32 r then raise .overflow s else retireReg s rd (sext (BitVec.ofInt 32 r))

/-- The end of a 64-bit operation with exact signed result `r` (40 R202, R207). -/
def retireExact64 (s : State) (rd : RegNum) (r : Int) : Result :=
  if overflows 64 r then raise .overflow s else retireReg s rd (BitVec.ofInt 64 r)

-- Register-register add and subtract.

/-- ADD (40 R203). -/
def execAdd (rs rt rd : RegNum) (s : State) : Result :=
  retireExact32 s rd ((s.regLow rs).toInt + (s.regLow rt).toInt)

/-- ADDU (40 R204). -/
def execAddu (rs rt rd : RegNum) (s : State) : Result :=
  retireReg s rd (sext (s.regLow rs + s.regLow rt))

/-- SUB (40 R205). -/
def execSub (rs rt rd : RegNum) (s : State) : Result :=
  retireExact32 s rd ((s.regLow rs).toInt - (s.regLow rt).toInt)

/-- SUBU (40 R206). -/
def execSubu (rs rt rd : RegNum) (s : State) : Result :=
  retireReg s rd (sext (s.regLow rs - s.regLow rt))

/-- DADD (40 R207). -/
def execDadd (rs rt rd : RegNum) (s : State) : Result :=
  require64 s (retireExact64 s rd ((s.reg rs).toInt + (s.reg rt).toInt))

/-- DADDU (40 R208). -/
def execDaddu (rs rt rd : RegNum) (s : State) : Result :=
  require64 s (retireReg s rd (s.reg rs + s.reg rt))

/-- DSUB (40 R209). -/
def execDsub (rs rt rd : RegNum) (s : State) : Result :=
  require64 s (retireExact64 s rd ((s.reg rs).toInt - (s.reg rt).toInt))

/-- DSUBU (40 R210). -/
def execDsubu (rs rt rd : RegNum) (s : State) : Result :=
  require64 s (retireReg s rd (s.reg rs - s.reg rt))

-- Add immediate.

/-- ADDI (40 R211). -/
def execAddi (rs rt : RegNum) (imm : BitVec 16) (s : State) : Result :=
  retireExact32 s rt ((s.regLow rs).toInt + imm.toInt)

/-- ADDIU (40 R212). -/
def execAddiu (rs rt : RegNum) (imm : BitVec 16) (s : State) : Result :=
  retireReg s rt (sext (s.regLow rs + lowWord (simm imm)))

/-- DADDI (40 R213). -/
def execDaddi (rs rt : RegNum) (imm : BitVec 16) (s : State) : Result :=
  require64 s (retireExact64 s rt ((s.reg rs).toInt + imm.toInt))

/-- DADDIU (40 R214). -/
def execDaddiu (rs rt : RegNum) (imm : BitVec 16) (s : State) : Result :=
  require64 s (retireReg s rt (s.reg rs + simm imm))

-- Set on less than.

/-- SLT (40 R215). -/
def execSlt (rs rt rd : RegNum) (s : State) : Result :=
  retireReg s rd (truthValue ((s.reg rs).slt (s.reg rt)))

/-- SLTU (40 R216). -/
def execSltu (rs rt rd : RegNum) (s : State) : Result :=
  retireReg s rd (truthValue ((s.reg rs).ult (s.reg rt)))

/-- SLTI (40 R217). -/
def execSlti (rs rt : RegNum) (imm : BitVec 16) (s : State) : Result :=
  retireReg s rt (truthValue ((s.reg rs).slt (simm imm)))

/-- SLTIU (40 R218): the immediate is sign-extended, then compared unsigned. -/
def execSltiu (rs rt : RegNum) (imm : BitVec 16) (s : State) : Result :=
  retireReg s rt (truthValue ((s.reg rs).ult (simm imm)))

-- Logical.

/-- AND (40 R219). -/
def execAnd (rs rt rd : RegNum) (s : State) : Result :=
  retireReg s rd (s.reg rs &&& s.reg rt)

/-- OR (40 R220). -/
def execOr (rs rt rd : RegNum) (s : State) : Result :=
  retireReg s rd (s.reg rs ||| s.reg rt)

/-- XOR (40 R221). -/
def execXor (rs rt rd : RegNum) (s : State) : Result :=
  retireReg s rd (s.reg rs ^^^ s.reg rt)

/-- NOR (40 R222). -/
def execNor (rs rt rd : RegNum) (s : State) : Result :=
  retireReg s rd (~~~(s.reg rs ||| s.reg rt))

/-- ANDI (40 R223). -/
def execAndi (rs rt : RegNum) (imm : BitVec 16) (s : State) : Result :=
  retireReg s rt (s.reg rs &&& zimm imm)

/-- ORI (40 R224). -/
def execOri (rs rt : RegNum) (imm : BitVec 16) (s : State) : Result :=
  retireReg s rt (s.reg rs ||| zimm imm)

/-- XORI (40 R225). -/
def execXori (rs rt : RegNum) (imm : BitVec 16) (s : State) : Result :=
  retireReg s rt (s.reg rs ^^^ zimm imm)

/-- LUI (40 R226). -/
def execLui (rt : RegNum) (imm : BitVec 16) (s : State) : Result :=
  retireReg s rt (uimm imm)

-- Shifts.

/-- SLL (40 R227). -/
def execSll (rt rd : RegNum) (sa : BitVec 5) (s : State) : Result :=
  retireReg s rd (sext (s.regLow rt <<< sa.toNat))

/-- SRL (40 R228). -/
def execSrl (rt rd : RegNum) (sa : BitVec 5) (s : State) : Result :=
  retireReg s rd (sext (s.regLow rt >>> sa.toNat))

/-- SRA (40 R229). -/
def execSra (rt rd : RegNum) (sa : BitVec 5) (s : State) : Result :=
  retireReg s rd (sext ((s.regLow rt).sshiftRight sa.toNat))

/-- SLLV (40 R230). -/
def execSllv (rs rt rd : RegNum) (s : State) : Result :=
  retireReg s rd (sext (s.regLow rt <<< shiftAmount32 s rs))

/-- SRLV (40 R231). -/
def execSrlv (rs rt rd : RegNum) (s : State) : Result :=
  retireReg s rd (sext (s.regLow rt >>> shiftAmount32 s rs))

/-- SRAV (40 R232). -/
def execSrav (rs rt rd : RegNum) (s : State) : Result :=
  retireReg s rd (sext ((s.regLow rt).sshiftRight (shiftAmount32 s rs)))

/-- DSLL (40 R233). -/
def execDsll (rt rd : RegNum) (sa : BitVec 5) (s : State) : Result :=
  require64 s (retireReg s rd (s.reg rt <<< sa.toNat))

/-- DSRL (40 R234). -/
def execDsrl (rt rd : RegNum) (sa : BitVec 5) (s : State) : Result :=
  require64 s (retireReg s rd (s.reg rt >>> sa.toNat))

/-- DSRA (40 R235). -/
def execDsra (rt rd : RegNum) (sa : BitVec 5) (s : State) : Result :=
  require64 s (retireReg s rd ((s.reg rt).sshiftRight sa.toNat))

/-- DSLL32 (40 R236). -/
def execDsll32 (rt rd : RegNum) (sa : BitVec 5) (s : State) : Result :=
  require64 s (retireReg s rd (s.reg rt <<< (sa.toNat + 32)))

/-- DSRL32 (40 R237). -/
def execDsrl32 (rt rd : RegNum) (sa : BitVec 5) (s : State) : Result :=
  require64 s (retireReg s rd (s.reg rt >>> (sa.toNat + 32)))

/-- DSRA32 (40 R238). -/
def execDsra32 (rt rd : RegNum) (sa : BitVec 5) (s : State) : Result :=
  require64 s (retireReg s rd ((s.reg rt).sshiftRight (sa.toNat + 32)))

/-- DSLLV (40 R239). -/
def execDsllv (rs rt rd : RegNum) (s : State) : Result :=
  require64 s (retireReg s rd (s.reg rt <<< shiftAmount64 s rs))

/-- DSRLV (40 R240). -/
def execDsrlv (rs rt rd : RegNum) (s : State) : Result :=
  require64 s (retireReg s rd (s.reg rt >>> shiftAmount64 s rs))

/-- DSRAV (40 R241). -/
def execDsrav (rs rt rd : RegNum) (s : State) : Result :=
  require64 s (retireReg s rd ((s.reg rt).sshiftRight (shiftAmount64 s rs)))

end Sys2Proof.Machine
end

