-- ==== Sys2Proof/Machine/Branch.lean ====
section
/-! DEFINITION. The meanings of the jumps and branches (42_branch.md). -/

namespace Sys2Proof.Machine

-- Jumps.

/-- J (42 R281). -/
def execJ (index : BitVec 26) (s : State) : Result :=
  branch true (jumpTargetOf s index) s

/-- JAL (42 R282). -/
def execJal (index : BitVec 26) (s : State) : Result :=
  branch true (jumpTargetOf s index) (s.setReg linkReg (linkOf s))

/-- JR (42 R283). -/
def execJr (rs : RegNum) (s : State) : Result :=
  branch true (s.reg rs) s

/-- JALR (42 R284): the target is read before the link is written (R304), and rd = 0 links x[31]. -/
def execJalr (rs rd : RegNum) (s : State) : Result :=
  branch true (s.reg rs) (s.setReg (if rd = 0#5 then linkReg else rd) (linkOf s))

-- Conditional branches: the condition and the target are taken from the registers before any link (42 R285, R304).

/-- BEQ (42 R286). -/
def execBeq (rs rt : RegNum) (offset : BitVec 16) (s : State) : Result :=
  branch (s.reg rs == s.reg rt) (branchTargetOf s offset) s

/-- BNE (42 R287). -/
def execBne (rs rt : RegNum) (offset : BitVec 16) (s : State) : Result :=
  branch (s.reg rs != s.reg rt) (branchTargetOf s offset) s

/-- BLEZ (42 R288). -/
def execBlez (rs : RegNum) (offset : BitVec 16) (s : State) : Result :=
  branch ((s.reg rs).sle 0#64) (branchTargetOf s offset) s

/-- BGTZ (42 R289). -/
def execBgtz (rs : RegNum) (offset : BitVec 16) (s : State) : Result :=
  branch ((0#64).slt (s.reg rs)) (branchTargetOf s offset) s

/-- BLTZ (42 R290). -/
def execBltz (rs : RegNum) (offset : BitVec 16) (s : State) : Result :=
  branch ((s.reg rs).slt 0#64) (branchTargetOf s offset) s

/-- BGEZ (42 R291). -/
def execBgez (rs : RegNum) (offset : BitVec 16) (s : State) : Result :=
  branch ((0#64).sle (s.reg rs)) (branchTargetOf s offset) s

/-- BLTZAL (42 R292). -/
def execBltzal (rs : RegNum) (offset : BitVec 16) (s : State) : Result :=
  branch ((s.reg rs).slt 0#64) (branchTargetOf s offset) (s.setReg linkReg (linkOf s))

/-- BGEZAL (42 R293). -/
def execBgezal (rs : RegNum) (offset : BitVec 16) (s : State) : Result :=
  branch ((0#64).sle (s.reg rs)) (branchTargetOf s offset) (s.setReg linkReg (linkOf s))

-- Likely branches.

/-- BEQL (42 R294). -/
def execBeql (rs rt : RegNum) (offset : BitVec 16) (s : State) : Result :=
  branchLikely (s.reg rs == s.reg rt) (branchTargetOf s offset) s

/-- BNEL (42 R295). -/
def execBnel (rs rt : RegNum) (offset : BitVec 16) (s : State) : Result :=
  branchLikely (s.reg rs != s.reg rt) (branchTargetOf s offset) s

/-- BLEZL (42 R296). -/
def execBlezl (rs : RegNum) (offset : BitVec 16) (s : State) : Result :=
  branchLikely ((s.reg rs).sle 0#64) (branchTargetOf s offset) s

/-- BGTZL (42 R297). -/
def execBgtzl (rs : RegNum) (offset : BitVec 16) (s : State) : Result :=
  branchLikely ((0#64).slt (s.reg rs)) (branchTargetOf s offset) s

/-- BLTZL (42 R298). -/
def execBltzl (rs : RegNum) (offset : BitVec 16) (s : State) : Result :=
  branchLikely ((s.reg rs).slt 0#64) (branchTargetOf s offset) s

/-- BGEZL (42 R299). -/
def execBgezl (rs : RegNum) (offset : BitVec 16) (s : State) : Result :=
  branchLikely ((0#64).sle (s.reg rs)) (branchTargetOf s offset) s

/-- BLTZALL (42 R300). -/
def execBltzall (rs : RegNum) (offset : BitVec 16) (s : State) : Result :=
  branchLikely ((s.reg rs).slt 0#64) (branchTargetOf s offset) (s.setReg linkReg (linkOf s))

/-- BGEZALL (42 R301). -/
def execBgezall (rs : RegNum) (offset : BitVec 16) (s : State) : Result :=
  branchLikely ((0#64).sle (s.reg rs)) (branchTargetOf s offset) (s.setReg linkReg (linkOf s))

end Sys2Proof.Machine
end

