-- ==== Sys2Proof/Machine/Memory.lean ====
section
/-! DEFINITION. Physical memory as a canonical list of cells: what an unlisted address reads as, reading
and writing one byte, and the canonical form. -/

namespace Sys2Proof.Machine

/-- What an address that memory does not list reads as. The spec gives memory no contents (20_memory.md
R132; 70 R500); DESIGN CHOICE, unsafe: 0 (log entry 4). -/
def unlistedByte : Byte := 0#8

/-- The byte at a physical address. -/
def Memory.read : Memory → Nat → Byte
  | [], _ => unlistedByte
  | (k, c) :: m, a => if k = a then c else Memory.read m a

/-- Memory with the byte at address `a` set to `b`, in canonical form where it was canonical before. -/
def Memory.write : Memory → Nat → Byte → Memory
  | [], a, b => if b = unlistedByte then [] else [(a, b)]
  | (k, c) :: m, a, b =>
    if a < k then
      if b = unlistedByte then (k, c) :: m else (a, b) :: (k, c) :: m
    else if a = k then
      if b = unlistedByte then m else (a, b) :: m
    else (k, c) :: Memory.write m a b

/-- The canonical form of a list all of whose addresses are at least `lo`: addresses strictly rising and
below 2^36, no byte equal to `unlistedByte`. -/
def Memory.wfFrom : Nat → Memory → Bool
  | _, [] => true
  | lo, (k, c) :: m =>
    decide (lo ≤ k) && decide (k < 2 ^ 36) && decide (c ≠ unlistedByte) && Memory.wfFrom (k + 1) m

/-- The canonical form of memory. -/
def Memory.wf (m : Memory) : Bool := Memory.wfFrom 0 m

end Sys2Proof.Machine
end

