-- ==== Sys2Proof/Machine/Translate.lean ====
section
/-! DEFINITION. Segments, the TLB lookup and translation (20_memory.md R107 to R119). Translation reads
the state and changes nothing (R119). -/

namespace Sys2Proof.Machine

/-- The segments of the 32-bit compatibility address space (20 R109). -/
inductive Segment where
  | kuseg
  | kseg0
  | kseg1
  | ksseg
  | kseg3
  deriving DecidableEq, Repr

/-- The segment of a canonical address, by its bits 31:29 (20 R109). -/
def segmentOf (va : DWord) : Segment :=
  match getField va 29 3 with
  | 4#3 => .kseg0
  | 5#3 => .kseg1
  | 6#3 => .ksseg
  | 7#3 => .kseg3
  | _ => .kuseg

/-- An address is canonical iff it is `sext_32` of its low word (20 R108). -/
def canonical (va : DWord) : Bool := va == sext (lowWord va)

/-- Whether the current mode may access a segment (20 R110). -/
def mayAccess (c : Cp0) (seg : Segment) : Bool :=
  match seg with
  | .kuseg => true
  | .ksseg => c.kernelMode || c.supervisorMode
  | .kseg0 | .kseg1 | .kseg3 => c.kernelMode

/-- The Address Error of an access (20 R113). -/
def addressError (acc : AccessKind) (va : DWord) : Exn :=
  match acc with
  | .store => .addressStore va
  | .fetch | .load => .addressLoad va

/-- The TLB Refill or TLB Invalid of an access (20 R117). -/
def tlbError (acc : AccessKind) (va : DWord) (refill : Bool) : Exn :=
  match acc with
  | .store => .tlbStore va refill
  | .fetch | .load => .tlbLoad va refill

/-- `k(e)`: the number of page-offset bits of an entry (20 R115). -/
def TlbEntry.offsetBits (e : TlbEntry) : Nat := 12 + popcount e.mask

/-- `offmask(e) = 2^k(e) - 1` (20 R115). -/
def TlbEntry.offMask (e : TlbEntry) : PAddr := BitVec.ofNat 36 (2 ^ e.offsetBits - 1)

/-- Whether an entry matches region `r` and page-pair number `vpn2` under ASID `asid`: `Match` of 20 R116,
which translation and TLBP share (45 R403). -/
def TlbEntry.matchesPage (e : TlbEntry) (r : BitVec 2) (vpn2 : BitVec 27) (asid : BitVec 8) : Bool :=
  e.present && e.r == r && (e.vpn2 &&& ~~~(e.mask.setWidth 27)) == (vpn2 &&& ~~~(e.mask.setWidth 27)) &&
    (e.g || e.asid == asid)

/-- The lowest-numbered entry that matches, with its number; `i` is the number of the list's first entry
(20 R116). -/
def firstMatch (r : BitVec 2) (vpn2 : BitVec 27) (asid : BitVec 8) : Nat → List TlbEntry → Option (Nat × TlbEntry)
  | _, [] => none
  | i, e :: es =>
    if e.matchesPage r vpn2 asid then some (i, e) else firstMatch r vpn2 asid (i + 1) es

/-- The half of an entry that an address selects: the bit of the address just above the page offset (20
R115, R117). -/
def TlbEntry.half (e : TlbEntry) (va : DWord) : TlbHalf :=
  if va.getLsbD e.offsetBits then e.odd else e.even

/-- `PhysAddr(pfn, va, e)` (20 R118). -/
def TlbEntry.physAddr (e : TlbEntry) (pfn : BitVec 24) (va : DWord) : PAddr :=
  ((pfn ++ 0#12) &&& ~~~e.offMask) ||| (va.setWidth 36 &&& e.offMask)

/-- `TLBLookup(va, acc)` (20 R117). -/
def tlbLookup (va : DWord) (acc : AccessKind) (s : State) : Except Exn PAddr :=
  match firstMatch (getField va 62 2) (getField va 13 27) s.cp0.asid 0 s.tlb with
  | none => .error (tlbError acc va true)
  | some (_, e) =>
    if (e.half va).v = false then .error (tlbError acc va false)
    else if acc = .store ∧ (e.half va).d = false then .error (.tlbModified va)
    else .ok (e.physAddr (e.half va).pfn va)

/-- `Translate(va, acc)` (20 R113). -/
def translate (va : DWord) (acc : AccessKind) (s : State) : Except Exn PAddr :=
  if canonical va = false then .error (addressError acc va)
  else if mayAccess s.cp0 (segmentOf va) = false then .error (addressError acc va)
  else
    match segmentOf va with
    | .kseg0 | .kseg1 => .ok ((getField va 0 29).setWidth 36)
    | .kuseg | .ksseg | .kseg3 => tlbLookup va acc s

/-- Whether an address is a multiple of the size of an access (20 R107). -/
def aligned (va : DWord) (w : Width) : Bool := va.toNat % widthBytes w == 0

/-- The checks of an aligned access before the bus: alignment, then translation (20 R120 to R122). -/
def translateAligned (va : DWord) (w : Width) (acc : AccessKind) (s : State) : Except Exn PAddr :=
  if aligned va w = false then .error (addressError acc va) else translate va acc s

end Sys2Proof.Machine
end

