-- ==== Sys2Proof/Machine/Access.lean ====
section
/-! DEFINITION. The bus (20_memory.md R102 to R106) and the access primitives of the core: MemRead,
MemWrite and Fetch (R120 to R122), and the unit accesses of the unaligned forms (43_loadstore.md R311). -/

namespace Sys2Proof.Machine

-- Wide values in memory, big-endian (20 R101, R103).

/-- The memory address of byte `i` of an access at `pa`. -/
def byteAddr (pa : PAddr) (i : Nat) : Nat := (pa + BitVec.ofNat 36 i).toNat

/-- The `n`-byte value at `pa` in the low bits, its most significant byte at `pa`. -/
def readBytes (m : Memory) (pa : PAddr) : Nat → DWord
  | 0 => 0
  | n + 1 => (readBytes m pa n <<< 8) ||| zext (Memory.read m (byteAddr pa n))

/-- Memory with the low `n` bytes of `v` at `pa`, the most significant of them at `pa`. -/
def writeBytes (m : Memory) (pa : PAddr) : Nat → DWord → Memory
  | 0, _ => m
  | n + 1, v => Memory.write (writeBytes m pa n (v >>> 8)) (byteAddr pa n) (getField v 0 8)

-- The bus (20 R102, R104, R105).

/-- What stands at a physical address: the first region of the map that holds it, else memory (20 R132;
log entry 5). -/
def regionKindAt : List Region → Nat → RegionKind
  | [], _ => .memory
  | r :: rs, a => if r.base ≤ a ∧ a < r.base + r.size then r.kind else regionKindAt rs a

/-- The answer of a device and the state after asking it: DeviceMisaligned for a size it does not take,
else a fresh free value (20 R104, R105; log entry 6). -/
def askDevice (s : State) (accepts : List Width) (w : Width) (q : BusRequest) : BusAnswer × State :=
  if w ∈ accepts then (Config.deviceAnswer s.busTick q, { s with busTick := s.busTick + 1 })
  else (.deviceMisaligned, s)

/-- `Bus.read_N(pa)` and `Bus.fetch32(pa)`, as the request `q`. -/
def busRead (pa : PAddr) (w : Width) (q : BusRequest) (s : State) : BusAnswer × State :=
  match regionKindAt s.bus pa.toNat with
  | .memory => (.ok (readBytes s.mem pa (widthBytes w)), s)
  | .unmapped => (.unmapped, s)
  | .device accepts => askDevice s accepts w q

/-- `Bus.write_N(pa, v)`; an access that faults has no effect on memory (20 R104). -/
def busWrite (pa : PAddr) (w : Width) (v : DWord) (s : State) : BusAnswer × State :=
  match regionKindAt s.bus pa.toNat with
  | .memory => (.ok 0, { s with mem := writeBytes s.mem pa (widthBytes w) v })
  | .unmapped => (.unmapped, s)
  | .device accepts => askDevice s accepts w (.write pa w v)

/-- The low bits of a value, as many as an access has. -/
def truncateTo (w : Width) (v : DWord) : DWord :=
  match w with
  | .byte => zext (getField v 0 8)
  | .half => zext (getField v 0 16)
  | .word => zext (getField v 0 32)
  | .dword => v

/-- The exception of a bus fault (20 R106): Unmapped is a bus error, DeviceMisaligned an address error. -/
def busError (acc : AccessKind) (va : DWord) : Exn :=
  match acc with
  | .fetch => .busFetch va
  | .load | .store => .busData va

/-- A read of the bus at `pa` for the access at `va`, with its faults as exceptions (20 R106, R120). -/
def loadAt (va : DWord) (pa : PAddr) (w : Width) (s : State) : ReadResult :=
  match busRead pa w (.read pa w) s with
  | (.ok v, s') => .ok (truncateTo w v) s'
  | (.unmapped, s') => .raised (busError .load va) s'
  | (.deviceMisaligned, s') => .raised (addressError .load va) s'

/-- A write of the bus at `pa` for the access at `va`, with its faults as exceptions (20 R106, R121). -/
def storeAt (va : DWord) (pa : PAddr) (w : Width) (v : DWord) (s : State) : WriteResult :=
  match busWrite pa w (truncateTo w v) s with
  | (.ok _, s') => .ok s'
  | (.unmapped, s') => .raised (busError .store va) s'
  | (.deviceMisaligned, s') => .raised (addressError .store va) s'

/-- `MemRead(va, n)` (20 R120): the value, zero-extended. -/
def memRead (va : DWord) (w : Width) (s : State) : ReadResult :=
  match translateAligned va w .load s with
  | .error e => .raised e s
  | .ok pa => loadAt va pa w s

/-- `MemWrite(va, n, v)` (20 R121). -/
def memWrite (va : DWord) (w : Width) (v : DWord) (s : State) : WriteResult :=
  match translateAligned va w .store s with
  | .error e => .raised e s
  | .ok pa => storeAt va pa w v s

/-- `Fetch(va)` (20 R122). -/
def fetch (va : DWord) (s : State) : ReadResult :=
  match translateAligned va .word .fetch s with
  | .error e => .raised e s
  | .ok pa =>
    match busRead pa .word (.fetch pa) s with
    | (.ok v, s') => .ok (truncateTo .word v) s'
    | (.unmapped, s') => .raised (busError .fetch va) s'
    | (.deviceMisaligned, s') => .raised (addressError .fetch va) s'

-- The unit accesses of LWL, LWR, LDL, LDR, SWL, SWR, SDL and SDR (43 R311).

/-- The address of the naturally aligned unit of `w` that holds `pa`. -/
def unitAddr (pa : PAddr) (w : Width) : PAddr := pa &&& ~~~(BitVec.ofNat 36 (widthBytes w - 1))

/-- `ReadUnit(ea, n)` (43 R311). -/
def readUnit (ea : DWord) (w : Width) (s : State) : ReadResult :=
  match translate ea .load s with
  | .error e => .raised e s
  | .ok pa => loadAt ea (unitAddr pa w) w s

/-- The byte writes of a partial unit store: bytes `first .. first + count - 1` of the `n`-byte value
`u`, in ascending order of address; the first that faults ends them (43 R311, R331). -/
def writeByteRun (ea : DWord) (pa : PAddr) (n : Nat) (u : DWord) : Nat → Nat → State → WriteResult
  | _, 0, s => .ok s
  | first, count + 1, s =>
    match storeAt ea (pa + BitVec.ofNat 36 first) .byte (u >>> (8 * (n - 1 - first))) s with
    | .ok s' => writeByteRun ea pa n u (first + 1) count s'
    | .raised e s' => .raised e s'

/-- `WriteUnitBytes(ea, n, first, last, u)` (43 R311): one write of the whole unit where it is covered,
else one write for each byte. -/
def writeUnitBytes (ea : DWord) (w : Width) (first last : Nat) (u : DWord) (s : State) : WriteResult :=
  match translate ea .store s with
  | .error e => .raised e s
  | .ok pa =>
    if first = 0 ∧ last = widthBytes w - 1 then storeAt ea (unitAddr pa w) w u s
    else writeByteRun ea (unitAddr pa w) (widthBytes w) u first (last + 1 - first) s

end Sys2Proof.Machine
end

