-- ==== Sys2Proof/Machine/LoadStore.lean ====
section
/-! DEFINITION. The meanings of the loads, stores, atomics, SYNC and CACHE (43_loadstore.md). -/

namespace Sys2Proof.Machine

-- The shapes of this family (43 R310).

/-- The end of a load: `x[rt] <- f value` where the read succeeded, else its exception. -/
def retireLoad (rt : RegNum) (f : DWord → DWord) : ReadResult → Result
  | .ok v s => retire (s.setReg rt (f v))
  | .raised e s => raise e s

/-- The end of a store. -/
def retireStore : WriteResult → Result
  | .ok s => retire s
  | .raised e s => raise e s

/-- The end of LL and LLD: `x[rt] <- f value`, LLbit is set and LLAddr takes PA[35:4] (43 R336). -/
def retireLinked (rt : RegNum) (f : DWord → DWord) (pa : PAddr) : ReadResult → Result
  | .ok v s =>
    retire (((s.setReg rt (f v)).setLlbit true).setCp0 { s.cp0 with llAddr := getField pa 4 32 })
  | .raised e s => raise e s

/-- LL and LLD (43 R336, R337): every check of an aligned load, the read, and `retireLinked`. -/
def loadLinked (rt : RegNum) (f : DWord → DWord) (ea : DWord) (w : Width) (s : State) : Result :=
  match translateAligned ea w .load s with
  | .error e => raise e s
  | .ok pa => retireLinked rt f pa (loadAt ea pa w s)

/-- The end of an SC or SCD that stores: `x[rt] <- 1` and LLbit is cleared where the write succeeded, else
its exception with LLbit and rt as they were (43 R338). -/
def retireConditional (rt : RegNum) : WriteResult → Result
  | .ok s => retire ((s.setReg rt 1#64).setLlbit false)
  | .raised e s => raise e s

/-- SC and SCD (43 R338, R339): every check of an aligned store; the store where LLbit is set; else only
`x[rt] <- 0` and LLbit is cleared. -/
def storeConditional (rt : RegNum) (ea : DWord) (w : Width) (s : State) : Result :=
  match translateAligned ea w .store s with
  | .error e => raise e s
  | .ok pa =>
    if s.llbit then retireConditional rt (storeAt ea pa w (s.reg rt) s)
    else retire ((s.setReg rt 0#64).setLlbit false)

-- The merges of the unaligned loads (43 R319 to R322); `b` is the byte offset of the address in its unit.

/-- LWL: `m << 8b` over the low `8b` bits of `r`. -/
def mergeLeft32 (b : Nat) (m r : Word) : Word :=
  (m <<< (8 * b)) ||| (r &&& BitVec.ofNat 32 (2 ^ (8 * b) - 1))

/-- LWR: `m >>u s` under the bits of `r` above, s = 8(3 - b). -/
def mergeRight32 (b : Nat) (m r : Word) : Word :=
  (m >>> (8 * (3 - b))) ||| (r &&& ~~~(0xFFFFFFFF#32 >>> (8 * (3 - b))))

/-- LDL: `m << 8b` over the low `8b` bits of `r`. -/
def mergeLeft64 (b : Nat) (m r : DWord) : DWord :=
  (m <<< (8 * b)) ||| (r &&& BitVec.ofNat 64 (2 ^ (8 * b) - 1))

/-- LDR: `m >>u s` under the bits of `r` above, s = 8(7 - b). -/
def mergeRight64 (b : Nat) (m r : DWord) : DWord :=
  (m >>> (8 * (7 - b))) ||| (r &&& ~~~(0xFFFFFFFFFFFFFFFF#64 >>> (8 * (7 - b))))

-- Aligned loads.

/-- LB (43 R312). -/
def execLb (base rt : RegNum) (offset : BitVec 16) (s : State) : Result :=
  retireLoad rt (fun v => sext (getField v 0 8)) (memRead (effAddr s base offset) .byte s)

/-- LBU (43 R313). -/
def execLbu (base rt : RegNum) (offset : BitVec 16) (s : State) : Result :=
  retireLoad rt (fun v => zext (getField v 0 8)) (memRead (effAddr s base offset) .byte s)

/-- LH (43 R314). -/
def execLh (base rt : RegNum) (offset : BitVec 16) (s : State) : Result :=
  retireLoad rt (fun v => sext (getField v 0 16)) (memRead (effAddr s base offset) .half s)

/-- LHU (43 R315). -/
def execLhu (base rt : RegNum) (offset : BitVec 16) (s : State) : Result :=
  retireLoad rt (fun v => zext (getField v 0 16)) (memRead (effAddr s base offset) .half s)

/-- LW (43 R316). -/
def execLw (base rt : RegNum) (offset : BitVec 16) (s : State) : Result :=
  retireLoad rt (fun v => sext (getField v 0 32)) (memRead (effAddr s base offset) .word s)

/-- LWU (43 R317). -/
def execLwu (base rt : RegNum) (offset : BitVec 16) (s : State) : Result :=
  require64 s (retireLoad rt (fun v => zext (getField v 0 32)) (memRead (effAddr s base offset) .word s))

/-- LD (43 R318). -/
def execLd (base rt : RegNum) (offset : BitVec 16) (s : State) : Result :=
  require64 s (retireLoad rt (fun v => v) (memRead (effAddr s base offset) .dword s))

-- Unaligned loads.

/-- LWL (43 R319). -/
def execLwl (base rt : RegNum) (offset : BitVec 16) (s : State) : Result :=
  let ea := effAddr s base offset
  retireLoad rt (fun v => sext (mergeLeft32 (unitOffset ea .word) (getField v 0 32) (s.regLow rt)))
    (readUnit ea .word s)

/-- LWR (43 R320). -/
def execLwr (base rt : RegNum) (offset : BitVec 16) (s : State) : Result :=
  let ea := effAddr s base offset
  retireLoad rt (fun v => sext (mergeRight32 (unitOffset ea .word) (getField v 0 32) (s.regLow rt)))
    (readUnit ea .word s)

/-- LDL (43 R321). -/
def execLdl (base rt : RegNum) (offset : BitVec 16) (s : State) : Result :=
  let ea := effAddr s base offset
  require64 s (retireLoad rt (fun v => mergeLeft64 (unitOffset ea .dword) v (s.reg rt)) (readUnit ea .dword s))

/-- LDR (43 R322). -/
def execLdr (base rt : RegNum) (offset : BitVec 16) (s : State) : Result :=
  let ea := effAddr s base offset
  require64 s (retireLoad rt (fun v => mergeRight64 (unitOffset ea .dword) v (s.reg rt)) (readUnit ea .dword s))

-- Aligned stores.

/-- SB (43 R323). -/
def execSb (base rt : RegNum) (offset : BitVec 16) (s : State) : Result :=
  retireStore (memWrite (effAddr s base offset) .byte (s.reg rt) s)

/-- SH (43 R324). -/
def execSh (base rt : RegNum) (offset : BitVec 16) (s : State) : Result :=
  retireStore (memWrite (effAddr s base offset) .half (s.reg rt) s)

/-- SW (43 R325). -/
def execSw (base rt : RegNum) (offset : BitVec 16) (s : State) : Result :=
  retireStore (memWrite (effAddr s base offset) .word (s.reg rt) s)

/-- SD (43 R326). -/
def execSd (base rt : RegNum) (offset : BitVec 16) (s : State) : Result :=
  require64 s (retireStore (memWrite (effAddr s base offset) .dword (s.reg rt) s))

-- Unaligned stores.

/-- SWL (43 R327). -/
def execSwl (base rt : RegNum) (offset : BitVec 16) (s : State) : Result :=
  let ea := effAddr s base offset
  let b := unitOffset ea .word
  retireStore (writeUnitBytes ea .word b 3 (zext (s.regLow rt) >>> (8 * b)) s)

/-- SWR (43 R328). -/
def execSwr (base rt : RegNum) (offset : BitVec 16) (s : State) : Result :=
  let ea := effAddr s base offset
  let b := unitOffset ea .word
  retireStore (writeUnitBytes ea .word 0 b (zext (s.regLow rt <<< (8 * (3 - b)))) s)

/-- SDL (43 R329). -/
def execSdl (base rt : RegNum) (offset : BitVec 16) (s : State) : Result :=
  let ea := effAddr s base offset
  let b := unitOffset ea .dword
  require64 s (retireStore (writeUnitBytes ea .dword b 7 (s.reg rt >>> (8 * b)) s))

/-- SDR (43 R330). -/
def execSdr (base rt : RegNum) (offset : BitVec 16) (s : State) : Result :=
  let ea := effAddr s base offset
  let b := unitOffset ea .dword
  require64 s (retireStore (writeUnitBytes ea .dword 0 b (s.reg rt <<< (8 * (7 - b))) s))

-- Load linked and store conditional.

/-- LL (43 R336). -/
def execLl (base rt : RegNum) (offset : BitVec 16) (s : State) : Result :=
  loadLinked rt (fun v => sext (getField v 0 32)) (effAddr s base offset) .word s

/-- LLD (43 R337). -/
def execLld (base rt : RegNum) (offset : BitVec 16) (s : State) : Result :=
  require64 s (loadLinked rt (fun v => v) (effAddr s base offset) .dword s)

/-- SC (43 R338). -/
def execSc (base rt : RegNum) (offset : BitVec 16) (s : State) : Result :=
  storeConditional rt (effAddr s base offset) .word s

/-- SCD (43 R339). -/
def execScd (base rt : RegNum) (offset : BitVec 16) (s : State) : Result :=
  require64 s (storeConditional rt (effAddr s base offset) .dword s)

-- SYNC and CACHE.

/-- SYNC (43 R342): no operation, in every mode. -/
def execSync (_stype : BitVec 5) (s : State) : Result :=
  retire s

/-- CACHE (43 R343): no operation where CP0 is usable; no address is computed. -/
def execCache (_base : RegNum) (_op : BitVec 5) (_offset : BitVec 16) (s : State) : Result :=
  requireCp0 s (retire s)

end Sys2Proof.Machine
end

