-- ==== Sys2Proof/Machine/MulDiv.lean ====
section
/-! DEFINITION. The meanings of the HI/LO moves, multiplies and divides (41_muldiv.md). -/

namespace Sys2Proof.Machine

/-- MFHI (41 R262). -/
def execMfhi (rd : RegNum) (s : State) : Result :=
  retire (s.setReg rd s.hi)

/-- MFLO (41 R263). -/
def execMflo (rd : RegNum) (s : State) : Result :=
  retire (s.setReg rd s.lo)

/-- MTHI (41 R264). -/
def execMthi (rs : RegNum) (s : State) : Result :=
  retire (s.setHiLo (s.reg rs) s.lo)

/-- MTLO (41 R265). -/
def execMtlo (rs : RegNum) (s : State) : Result :=
  retire (s.setHiLo s.hi (s.reg rs))

-- The shapes of this family (41 R260).

/-- The end of a 32-bit multiply with the exact product `p`: LO and HI take `sext_32` of its halves. -/
def retireProduct32 (s : State) (p : Int) : Result :=
  let bits := BitVec.ofInt 64 p
  retire (s.setHiLo (sext (getField bits 32 32)) (sext (getField bits 0 32)))

/-- The end of a 64-bit multiply with the exact product `p`: LO and HI take its halves. -/
def retireProduct64 (s : State) (p : Int) : Result :=
  let bits := BitVec.ofInt 128 p
  retire (s.setHiLo (getField bits 64 64) (getField bits 0 64))

/-- The end of a division by zero: HI and LO take the parameter DIV0's values (41 R261). -/
def retireDivZero (s : State) (op : DivOp) (dividend : DWord) : Result :=
  let r := Config.div0 op dividend
  retire (s.setHiLo r.1 r.2)

/-- The end of a 32-bit division with exact quotient `q` and remainder `r`. -/
def retireQuotient32 (s : State) (q r : Int) : Result :=
  retire (s.setHiLo (sext (BitVec.ofInt 32 r)) (sext (BitVec.ofInt 32 q)))

/-- The end of a 64-bit division with exact quotient `q` and remainder `r`. -/
def retireQuotient64 (s : State) (q r : Int) : Result :=
  retire (s.setHiLo (BitVec.ofInt 64 r) (BitVec.ofInt 64 q))

-- Multiply.

/-- MULT (41 R266). -/
def execMult (rs rt : RegNum) (s : State) : Result :=
  retireProduct32 s ((s.regLow rs).toInt * (s.regLow rt).toInt)

/-- MULTU (41 R267). -/
def execMultu (rs rt : RegNum) (s : State) : Result :=
  retireProduct32 s ((s.regLow rs).toNat * (s.regLow rt).toNat)

/-- DMULT (41 R270). -/
def execDmult (rs rt : RegNum) (s : State) : Result :=
  require64 s (retireProduct64 s ((s.reg rs).toInt * (s.reg rt).toInt))

/-- DMULTU (41 R271). -/
def execDmultu (rs rt : RegNum) (s : State) : Result :=
  require64 s (retireProduct64 s ((s.reg rs).toNat * (s.reg rt).toNat))

-- Divide.

/-- DIV (41 R268). The overflow case -2^31 / -1 has its own line in the rule. -/
def execDiv (rs rt : RegNum) (s : State) : Result :=
  let n := (s.regLow rs).toInt
  let d := (s.regLow rt).toInt
  if d = 0 then retireDivZero s .div (s.reg rs)
  else if n = -2 ^ 31 ∧ d = -1 then retire (s.setHiLo 0 (sext 0x80000000#32))
  else retireQuotient32 s (n.tdiv d) (n.tmod d)

/-- DIVU (41 R269). -/
def execDivu (rs rt : RegNum) (s : State) : Result :=
  let n := (s.regLow rs).toNat
  let d := (s.regLow rt).toNat
  if d = 0 then retireDivZero s .divu (s.reg rs)
  else retireQuotient32 s (n / d : Nat) (n % d : Nat)

/-- DDIV (41 R272). The overflow case -2^63 / -1 has its own line in the rule. -/
def execDdiv (rs rt : RegNum) (s : State) : Result :=
  require64 s (
    let n := (s.reg rs).toInt
    let d := (s.reg rt).toInt
    if d = 0 then retireDivZero s .ddiv (s.reg rs)
    else if n = -2 ^ 63 ∧ d = -1 then retire (s.setHiLo 0 0x8000000000000000#64)
    else retireQuotient64 s (n.tdiv d) (n.tmod d))

/-- DDIVU (41 R273). -/
def execDdivu (rs rt : RegNum) (s : State) : Result :=
  require64 s (
    let n := (s.reg rs).toNat
    let d := (s.reg rt).toNat
    if d = 0 then retireDivZero s .ddivu (s.reg rs)
    else retireQuotient64 s (n / d : Nat) (n % d : Nat))

end Sys2Proof.Machine
end

