-- ==== Sys2Proof/Machine/System.lean ====
section
/-! DEFINITION. The meanings of SYSCALL, BREAK, the traps, the CP0 moves, ERET and the coprocessor 1 to 3
encodings (44_system.md). -/

namespace Sys2Proof.Machine

-- The shapes of this family.

/-- The end of a conditional trap: Trap where the condition holds, else no effect (44 R352). -/
def trapIf (c : Bool) (s : State) : Result := if c then raise .trap s else retire s

/-- The end of a coprocessor 1 to 3 encoding (44 R374). -/
def unusable (z : BitVec 2) (s : State) : Result := raise (.coprocessorUnusable z) s

-- SYSCALL and BREAK.

/-- SYSCALL (44 R350); the code field is for software. -/
def execSyscall (_code : BitVec 20) (s : State) : Result :=
  raise .syscall s

/-- BREAK (44 R351); the code field is for software. -/
def execBreakpoint (_code : BitVec 20) (s : State) : Result :=
  raise .breakpoint s

-- Conditional traps.

/-- TGE (44 R353). -/
def execTge (rs rt : RegNum) (_code : BitVec 10) (s : State) : Result :=
  trapIf ((s.reg rt).sle (s.reg rs)) s

/-- TGEU (44 R354). -/
def execTgeu (rs rt : RegNum) (_code : BitVec 10) (s : State) : Result :=
  trapIf ((s.reg rt).ule (s.reg rs)) s

/-- TLT (44 R355). -/
def execTlt (rs rt : RegNum) (_code : BitVec 10) (s : State) : Result :=
  trapIf ((s.reg rs).slt (s.reg rt)) s

/-- TLTU (44 R356). -/
def execTltu (rs rt : RegNum) (_code : BitVec 10) (s : State) : Result :=
  trapIf ((s.reg rs).ult (s.reg rt)) s

/-- TEQ (44 R357). -/
def execTeq (rs rt : RegNum) (_code : BitVec 10) (s : State) : Result :=
  trapIf (s.reg rs == s.reg rt) s

/-- TNE (44 R358). -/
def execTne (rs rt : RegNum) (_code : BitVec 10) (s : State) : Result :=
  trapIf (s.reg rs != s.reg rt) s

/-- TGEI (44 R359). -/
def execTgei (rs : RegNum) (imm : BitVec 16) (s : State) : Result :=
  trapIf ((simm imm).sle (s.reg rs)) s

/-- TGEIU (44 R360). -/
def execTgeiu (rs : RegNum) (imm : BitVec 16) (s : State) : Result :=
  trapIf ((simm imm).ule (s.reg rs)) s

/-- TLTI (44 R361). -/
def execTlti (rs : RegNum) (imm : BitVec 16) (s : State) : Result :=
  trapIf ((s.reg rs).slt (simm imm)) s

/-- TLTIU (44 R362). -/
def execTltiu (rs : RegNum) (imm : BitVec 16) (s : State) : Result :=
  trapIf ((s.reg rs).ult (simm imm)) s

/-- TEQI (44 R363). -/
def execTeqi (rs : RegNum) (imm : BitVec 16) (s : State) : Result :=
  trapIf (s.reg rs == simm imm) s

/-- TNEI (44 R364). -/
def execTnei (rs : RegNum) (imm : BitVec 16) (s : State) : Result :=
  trapIf (s.reg rs != simm imm) s

-- CP0 moves.

/-- MFC0 (44 R366). -/
def execMfc0 (rt rd : RegNum) (s : State) : Result :=
  requireCp0 s (retire (s.setReg rt (sext (lowWord (s.cp0.read rd)))))

/-- DMFC0 (44 R367): CP0 usable is checked first, then the mode. -/
def execDmfc0 (rt rd : RegNum) (s : State) : Result :=
  requireCp0 s (require64 s (retire (s.setReg rt (s.cp0.read rd))))

/-- MTC0 (44 R368). -/
def execMtc0 (rt rd : RegNum) (s : State) : Result :=
  requireCp0 s (retire (s.setCp0 (s.cp0.write s.tlbSize rd (sext (s.regLow rt)))))

/-- DMTC0 (44 R369). -/
def execDmtc0 (rt rd : RegNum) (s : State) : Result :=
  requireCp0 s (require64 s (retire (s.setCp0 (s.cp0.write s.tlbSize rd (s.reg rt)))))

-- ERET.

/-- ERET (44 R372). -/
def execEret  (s : State) : Result :=
  requireCp0 s (.next (returnFromException s))

-- Coprocessor 1, 2 and 3 encodings.

/-- COP1 (44 R375). -/
def execCop1 (_cofun : BitVec 26) (s : State) : Result :=
  unusable 1 s

/-- COP2 (44 R376). -/
def execCop2 (_cofun : BitVec 26) (s : State) : Result :=
  unusable 2 s

/-- COP3 (44 R377). -/
def execCop3 (_cofun : BitVec 26) (s : State) : Result :=
  unusable 3 s

/-- LWC1 (44 R378). -/
def execLwc1 (_base _rt : RegNum) (_offset : BitVec 16) (s : State) : Result :=
  unusable 1 s

/-- LWC2 (44 R379). -/
def execLwc2 (_base _rt : RegNum) (_offset : BitVec 16) (s : State) : Result :=
  unusable 2 s

/-- LDC1 (44 R380). -/
def execLdc1 (_base _rt : RegNum) (_offset : BitVec 16) (s : State) : Result :=
  unusable 1 s

/-- LDC2 (44 R381). -/
def execLdc2 (_base _rt : RegNum) (_offset : BitVec 16) (s : State) : Result :=
  unusable 2 s

/-- SWC1 (44 R382). -/
def execSwc1 (_base _rt : RegNum) (_offset : BitVec 16) (s : State) : Result :=
  unusable 1 s

/-- SWC2 (44 R383). -/
def execSwc2 (_base _rt : RegNum) (_offset : BitVec 16) (s : State) : Result :=
  unusable 2 s

/-- SDC1 (44 R384). -/
def execSdc1 (_base _rt : RegNum) (_offset : BitVec 16) (s : State) : Result :=
  unusable 1 s

/-- SDC2 (44 R385). -/
def execSdc2 (_base _rt : RegNum) (_offset : BitVec 16) (s : State) : Result :=
  unusable 2 s

end Sys2Proof.Machine
end

