-- ==== Sys2Proof/Machine/Tlb.lean ====
section
/-! DEFINITION. The meanings of the TLB maintenance instructions (45_tlb.md). -/

namespace Sys2Proof.Machine

-- Composing and decomposing an entry (45 R405).

/-- A half of an entry as EntryLo holds it. -/
def halfOf (entryLo : DWord) : TlbHalf :=
  { pfn := getField entryLo 6 24, c := getField entryLo 3 3, d := bitAt entryLo 2, v := bitAt entryLo 1 }

/-- `Compose()`: the entry that TLBWI and TLBWR write. -/
def composeEntry (c : Cp0) : TlbEntry :=
  { present := true
    r := c.region
    vpn2 := c.vpn2
    mask := c.mask
    asid := c.asid
    g := bitAt c.entryLo0 0 && bitAt c.entryLo1 0
    even := halfOf c.entryLo0
    odd := halfOf c.entryLo1 }

/-- `Decompose(E)`: the staging registers that TLBR writes. -/
def decomposeEntry (c : Cp0) (e : TlbEntry) : Cp0 :=
  { c with
    entryHi := entryHiOf e.r e.vpn2 e.asid
    pageMask := pageMaskOf e.mask
    entryLo0 := entryLoOf e.even e.g
    entryLo1 := entryLoOf e.odd e.g }

-- The instructions.

/-- TLBR (45 R400); a slot number of TLB_SIZE or more has no effect. -/
def execTlbr (s : State) : Result :=
  requireCp0 s (
    match s.tlb[s.cp0.indexField]? with
    | some e => retire (s.setCp0 (decomposeEntry s.cp0 e))
    | none => retire s)

/-- TLBWI (45 R401); a slot number of TLB_SIZE or more has no effect. -/
def execTlbwi (s : State) : Result :=
  requireCp0 s (retire (s.setTlb s.cp0.indexField (composeEntry s.cp0)))

/-- Random after a TLBWR: one less, or TLB_SIZE-1 where it is not above Wired (45 R402). -/
def Cp0.advanceRandom (c : Cp0) (tlbSize : Nat) : Cp0 :=
  { c with
    random := BitVec.ofNat 32 (if c.randomField ≤ c.wiredField then tlbSize - 1 else c.randomField - 1) }

/-- TLBWR (45 R402). A Random that names no slot, which only a state that is not sound has, writes no entry (log
entry 13). -/
def execTlbwr (s : State) : Result :=
  requireCp0 s (
    retire ((s.setTlb s.cp0.randomField (composeEntry s.cp0)).setCp0 (s.cp0.advanceRandom s.tlbSize)))

/-- Index after a TLBP: the slot with P = 0, or P = 1 with the Index field as it was (45 R403). -/
def Cp0.noteProbe (c : Cp0) (slot : Option Nat) : Cp0 :=
  match slot with
  | some i => { c with index := BitVec.ofNat 32 i }
  | none => { c with index := setField c.index 31 1#1 }

/-- TLBP (45 R403). -/
def execTlbp (s : State) : Result :=
  requireCp0 s (
    retire (s.setCp0 (s.cp0.noteProbe
      ((firstMatch s.cp0.region s.cp0.vpn2 s.cp0.asid 0 s.tlb).map (fun p => p.1)))))

end Sys2Proof.Machine
end

