-- ==== Sys2Proof/Syntax.lean ====
section
/-! DEFINITION. The instructions of the core: one constructor for each row of spec/opcode_table.json
(30_encoding.md R160), its arguments the fields of that row in the table's order. Bits outside a row's
mask and fields are ignored by the decoder (R159) and are not part of the instruction. -/

namespace Sys2Proof

/-- An instruction, with the rule that gives its meaning. `rs`, `rt`, `rd` and `base` are general
register numbers, except that `rd` names a CP0 register in the four CP0 moves (R151, R153). -/
inductive Instr where
  -- Add, subtract, compare, logic and shifts (40_alu.md)
  /-- ADD, R203. -/
  | add (rs rt rd : RegNum)
  /-- ADDU, R204. -/
  | addu (rs rt rd : RegNum)
  /-- SUB, R205. -/
  | sub (rs rt rd : RegNum)
  /-- SUBU, R206. -/
  | subu (rs rt rd : RegNum)
  /-- DADD, R207. -/
  | dadd (rs rt rd : RegNum)
  /-- DADDU, R208. -/
  | daddu (rs rt rd : RegNum)
  /-- DSUB, R209. -/
  | dsub (rs rt rd : RegNum)
  /-- DSUBU, R210. -/
  | dsubu (rs rt rd : RegNum)
  /-- ADDI, R211. -/
  | addi (rs rt : RegNum) (imm : BitVec 16)
  /-- ADDIU, R212. -/
  | addiu (rs rt : RegNum) (imm : BitVec 16)
  /-- DADDI, R213. -/
  | daddi (rs rt : RegNum) (imm : BitVec 16)
  /-- DADDIU, R214. -/
  | daddiu (rs rt : RegNum) (imm : BitVec 16)
  /-- SLT, R215. -/
  | slt (rs rt rd : RegNum)
  /-- SLTU, R216. -/
  | sltu (rs rt rd : RegNum)
  /-- SLTI, R217. -/
  | slti (rs rt : RegNum) (imm : BitVec 16)
  /-- SLTIU, R218. -/
  | sltiu (rs rt : RegNum) (imm : BitVec 16)
  /-- AND, R219. -/
  | and (rs rt rd : RegNum)
  /-- OR, R220. -/
  | or (rs rt rd : RegNum)
  /-- XOR, R221. -/
  | xor (rs rt rd : RegNum)
  /-- NOR, R222. -/
  | nor (rs rt rd : RegNum)
  /-- ANDI, R223. -/
  | andi (rs rt : RegNum) (imm : BitVec 16)
  /-- ORI, R224. -/
  | ori (rs rt : RegNum) (imm : BitVec 16)
  /-- XORI, R225. -/
  | xori (rs rt : RegNum) (imm : BitVec 16)
  /-- LUI, R226. -/
  | lui (rt : RegNum) (imm : BitVec 16)
  /-- SLL, R227. -/
  | sll (rt rd : RegNum) (sa : BitVec 5)
  /-- SRL, R228. -/
  | srl (rt rd : RegNum) (sa : BitVec 5)
  /-- SRA, R229. -/
  | sra (rt rd : RegNum) (sa : BitVec 5)
  /-- SLLV, R230. -/
  | sllv (rs rt rd : RegNum)
  /-- SRLV, R231. -/
  | srlv (rs rt rd : RegNum)
  /-- SRAV, R232. -/
  | srav (rs rt rd : RegNum)
  /-- DSLL, R233. -/
  | dsll (rt rd : RegNum) (sa : BitVec 5)
  /-- DSRL, R234. -/
  | dsrl (rt rd : RegNum) (sa : BitVec 5)
  /-- DSRA, R235. -/
  | dsra (rt rd : RegNum) (sa : BitVec 5)
  /-- DSLL32, R236. -/
  | dsll32 (rt rd : RegNum) (sa : BitVec 5)
  /-- DSRL32, R237. -/
  | dsrl32 (rt rd : RegNum) (sa : BitVec 5)
  /-- DSRA32, R238. -/
  | dsra32 (rt rd : RegNum) (sa : BitVec 5)
  /-- DSLLV, R239. -/
  | dsllv (rs rt rd : RegNum)
  /-- DSRLV, R240. -/
  | dsrlv (rs rt rd : RegNum)
  /-- DSRAV, R241. -/
  | dsrav (rs rt rd : RegNum)
  -- HI/LO moves, multiply and divide (41_muldiv.md)
  /-- MFHI, R262. -/
  | mfhi (rd : RegNum)
  /-- MFLO, R263. -/
  | mflo (rd : RegNum)
  /-- MTHI, R264. -/
  | mthi (rs : RegNum)
  /-- MTLO, R265. -/
  | mtlo (rs : RegNum)
  /-- MULT, R266. -/
  | mult (rs rt : RegNum)
  /-- MULTU, R267. -/
  | multu (rs rt : RegNum)
  /-- DIV, R268. -/
  | div (rs rt : RegNum)
  /-- DIVU, R269. -/
  | divu (rs rt : RegNum)
  /-- DMULT, R270. -/
  | dmult (rs rt : RegNum)
  /-- DMULTU, R271. -/
  | dmultu (rs rt : RegNum)
  /-- DDIV, R272. -/
  | ddiv (rs rt : RegNum)
  /-- DDIVU, R273. -/
  | ddivu (rs rt : RegNum)
  -- Jumps and branches (42_branch.md)
  /-- J, R281. -/
  | j (index : BitVec 26)
  /-- JAL, R282. -/
  | jal (index : BitVec 26)
  /-- JR, R283. -/
  | jr (rs : RegNum)
  /-- JALR, R284. -/
  | jalr (rs rd : RegNum)
  /-- BEQ, R286. -/
  | beq (rs rt : RegNum) (offset : BitVec 16)
  /-- BNE, R287. -/
  | bne (rs rt : RegNum) (offset : BitVec 16)
  /-- BLEZ, R288. -/
  | blez (rs : RegNum) (offset : BitVec 16)
  /-- BGTZ, R289. -/
  | bgtz (rs : RegNum) (offset : BitVec 16)
  /-- BLTZ, R290. -/
  | bltz (rs : RegNum) (offset : BitVec 16)
  /-- BGEZ, R291. -/
  | bgez (rs : RegNum) (offset : BitVec 16)
  /-- BLTZAL, R292. -/
  | bltzal (rs : RegNum) (offset : BitVec 16)
  /-- BGEZAL, R293. -/
  | bgezal (rs : RegNum) (offset : BitVec 16)
  /-- BEQL, R294. -/
  | beql (rs rt : RegNum) (offset : BitVec 16)
  /-- BNEL, R295. -/
  | bnel (rs rt : RegNum) (offset : BitVec 16)
  /-- BLEZL, R296. -/
  | blezl (rs : RegNum) (offset : BitVec 16)
  /-- BGTZL, R297. -/
  | bgtzl (rs : RegNum) (offset : BitVec 16)
  /-- BLTZL, R298. -/
  | bltzl (rs : RegNum) (offset : BitVec 16)
  /-- BGEZL, R299. -/
  | bgezl (rs : RegNum) (offset : BitVec 16)
  /-- BLTZALL, R300. -/
  | bltzall (rs : RegNum) (offset : BitVec 16)
  /-- BGEZALL, R301. -/
  | bgezall (rs : RegNum) (offset : BitVec 16)
  -- Loads, stores, atomics, SYNC and CACHE (43_loadstore.md)
  /-- LB, R312. -/
  | lb (base rt : RegNum) (offset : BitVec 16)
  /-- LBU, R313. -/
  | lbu (base rt : RegNum) (offset : BitVec 16)
  /-- LH, R314. -/
  | lh (base rt : RegNum) (offset : BitVec 16)
  /-- LHU, R315. -/
  | lhu (base rt : RegNum) (offset : BitVec 16)
  /-- LW, R316. -/
  | lw (base rt : RegNum) (offset : BitVec 16)
  /-- LWU, R317. -/
  | lwu (base rt : RegNum) (offset : BitVec 16)
  /-- LD, R318. -/
  | ld (base rt : RegNum) (offset : BitVec 16)
  /-- LWL, R319. -/
  | lwl (base rt : RegNum) (offset : BitVec 16)
  /-- LWR, R320. -/
  | lwr (base rt : RegNum) (offset : BitVec 16)
  /-- LDL, R321. -/
  | ldl (base rt : RegNum) (offset : BitVec 16)
  /-- LDR, R322. -/
  | ldr (base rt : RegNum) (offset : BitVec 16)
  /-- SB, R323. -/
  | sb (base rt : RegNum) (offset : BitVec 16)
  /-- SH, R324. -/
  | sh (base rt : RegNum) (offset : BitVec 16)
  /-- SW, R325. -/
  | sw (base rt : RegNum) (offset : BitVec 16)
  /-- SD, R326. -/
  | sd (base rt : RegNum) (offset : BitVec 16)
  /-- SWL, R327. -/
  | swl (base rt : RegNum) (offset : BitVec 16)
  /-- SWR, R328. -/
  | swr (base rt : RegNum) (offset : BitVec 16)
  /-- SDL, R329. -/
  | sdl (base rt : RegNum) (offset : BitVec 16)
  /-- SDR, R330. -/
  | sdr (base rt : RegNum) (offset : BitVec 16)
  /-- LL, R336. -/
  | ll (base rt : RegNum) (offset : BitVec 16)
  /-- LLD, R337. -/
  | lld (base rt : RegNum) (offset : BitVec 16)
  /-- SC, R338. -/
  | sc (base rt : RegNum) (offset : BitVec 16)
  /-- SCD, R339. -/
  | scd (base rt : RegNum) (offset : BitVec 16)
  /-- SYNC, R342. -/
  | sync (stype : BitVec 5)
  /-- CACHE, R343. -/
  | cache (base : RegNum) (op : BitVec 5) (offset : BitVec 16)
  -- SYSCALL, BREAK, traps, CP0 moves, ERET and the coprocessor 1 to 3 encodings (44_system.md)
  /-- SYSCALL, R350. -/
  | syscall (code : BitVec 20)
  /-- BREAK, R351. -/
  | breakpoint (code : BitVec 20)
  /-- TGE, R353. -/
  | tge (rs rt : RegNum) (code : BitVec 10)
  /-- TGEU, R354. -/
  | tgeu (rs rt : RegNum) (code : BitVec 10)
  /-- TLT, R355. -/
  | tlt (rs rt : RegNum) (code : BitVec 10)
  /-- TLTU, R356. -/
  | tltu (rs rt : RegNum) (code : BitVec 10)
  /-- TEQ, R357. -/
  | teq (rs rt : RegNum) (code : BitVec 10)
  /-- TNE, R358. -/
  | tne (rs rt : RegNum) (code : BitVec 10)
  /-- TGEI, R359. -/
  | tgei (rs : RegNum) (imm : BitVec 16)
  /-- TGEIU, R360. -/
  | tgeiu (rs : RegNum) (imm : BitVec 16)
  /-- TLTI, R361. -/
  | tlti (rs : RegNum) (imm : BitVec 16)
  /-- TLTIU, R362. -/
  | tltiu (rs : RegNum) (imm : BitVec 16)
  /-- TEQI, R363. -/
  | teqi (rs : RegNum) (imm : BitVec 16)
  /-- TNEI, R364. -/
  | tnei (rs : RegNum) (imm : BitVec 16)
  /-- MFC0, R366. -/
  | mfc0 (rt rd : RegNum)
  /-- DMFC0, R367. -/
  | dmfc0 (rt rd : RegNum)
  /-- MTC0, R368. -/
  | mtc0 (rt rd : RegNum)
  /-- DMTC0, R369. -/
  | dmtc0 (rt rd : RegNum)
  /-- ERET, R372. -/
  | eret
  /-- COP1, R375. -/
  | cop1 (cofun : BitVec 26)
  /-- COP2, R376. -/
  | cop2 (cofun : BitVec 26)
  /-- COP3, R377. -/
  | cop3 (cofun : BitVec 26)
  /-- LWC1, R378. -/
  | lwc1 (base rt : RegNum) (offset : BitVec 16)
  /-- LWC2, R379. -/
  | lwc2 (base rt : RegNum) (offset : BitVec 16)
  /-- LDC1, R380. -/
  | ldc1 (base rt : RegNum) (offset : BitVec 16)
  /-- LDC2, R381. -/
  | ldc2 (base rt : RegNum) (offset : BitVec 16)
  /-- SWC1, R382. -/
  | swc1 (base rt : RegNum) (offset : BitVec 16)
  /-- SWC2, R383. -/
  | swc2 (base rt : RegNum) (offset : BitVec 16)
  /-- SDC1, R384. -/
  | sdc1 (base rt : RegNum) (offset : BitVec 16)
  /-- SDC2, R385. -/
  | sdc2 (base rt : RegNum) (offset : BitVec 16)
  -- TLB maintenance (45_tlb.md)
  /-- TLBR, R400. -/
  | tlbr
  /-- TLBWI, R401. -/
  | tlbwi
  /-- TLBWR, R402. -/
  | tlbwr
  /-- TLBP, R403. -/
  | tlbp
  deriving DecidableEq, Repr

end Sys2Proof
end

