-- ==== Sys2Proof/Decode.lean ====
section
/-! DEFINITION. Decoding (30_encoding.md R150 to R160) and, after it, the encoder, both written from the
field positions of R151 and the maps of R154 to R157. The mode checks that R159 makes while it decodes
(Coprocessor Unusable, Reserved Instruction for a 64-bit operation) need the state and are made by the
instructions' meanings. -/

namespace Sys2Proof

/-- Why a word names no instruction: the map of R154 to R157 in which it has no entry (R163). -/
inductive DecodeError where
  /-- No entry in the primary opcode map (R154). -/
  | reservedPrimary
  /-- No entry in the SPECIAL map (R155). -/
  | reservedSpecial
  /-- No entry in the REGIMM map (R156). -/
  | reservedRegimm
  /-- COP0, and rs names no sub-opcode (R157). -/
  | reservedCop0
  /-- COP0 with the CO bit set, and funct names no CO function (R157). -/
  | reservedCo
  /-- Fewer than the four bytes of an instruction were given; no fetch gives so few (R150). -/
  | truncated
  deriving DecidableEq, Repr

-- The fields of a word (R151).

/-- Primary opcode, bits 31:26. -/
def opOf (w : Word) : BitVec 6 := w.extractLsb' 26 6

/-- rs, bits 25:21; the base register of loads and stores. -/
def rsOf (w : Word) : RegNum := w.extractLsb' 21 5

/-- rt, bits 20:16. -/
def rtOf (w : Word) : RegNum := w.extractLsb' 16 5

/-- rd, bits 15:11. -/
def rdOf (w : Word) : RegNum := w.extractLsb' 11 5

/-- sa, bits 10:6. -/
def saOf (w : Word) : BitVec 5 := w.extractLsb' 6 5

/-- funct, bits 5:0. -/
def functOf (w : Word) : BitVec 6 := w.extractLsb' 0 6

/-- imm, bits 15:0; the displacement of branches, loads and stores. -/
def immOf (w : Word) : BitVec 16 := w.extractLsb' 0 16

/-- index, bits 25:0. -/
def indexOf (w : Word) : BitVec 26 := w.extractLsb' 0 26

/-- code, bits 25:6. -/
def codeOf (w : Word) : BitVec 20 := w.extractLsb' 6 20

/-- tcode, bits 15:6. -/
def tcodeOf (w : Word) : BitVec 10 := w.extractLsb' 6 10

/-- The SPECIAL map, by funct (R155). -/
def decodeSpecial (w : Word) : Except DecodeError Instr :=
  match functOf w with
  | 0x00#6 => .ok (.sll (rtOf w) (rdOf w) (saOf w))
  | 0x02#6 => .ok (.srl (rtOf w) (rdOf w) (saOf w))
  | 0x03#6 => .ok (.sra (rtOf w) (rdOf w) (saOf w))
  | 0x04#6 => .ok (.sllv (rsOf w) (rtOf w) (rdOf w))
  | 0x06#6 => .ok (.srlv (rsOf w) (rtOf w) (rdOf w))
  | 0x07#6 => .ok (.srav (rsOf w) (rtOf w) (rdOf w))
  | 0x08#6 => .ok (.jr (rsOf w))
  | 0x09#6 => .ok (.jalr (rsOf w) (rdOf w))
  | 0x0C#6 => .ok (.syscall (codeOf w))
  | 0x0D#6 => .ok (.breakpoint (codeOf w))
  | 0x0F#6 => .ok (.sync (saOf w))
  | 0x10#6 => .ok (.mfhi (rdOf w))
  | 0x11#6 => .ok (.mthi (rsOf w))
  | 0x12#6 => .ok (.mflo (rdOf w))
  | 0x13#6 => .ok (.mtlo (rsOf w))
  | 0x14#6 => .ok (.dsllv (rsOf w) (rtOf w) (rdOf w))
  | 0x16#6 => .ok (.dsrlv (rsOf w) (rtOf w) (rdOf w))
  | 0x17#6 => .ok (.dsrav (rsOf w) (rtOf w) (rdOf w))
  | 0x18#6 => .ok (.mult (rsOf w) (rtOf w))
  | 0x19#6 => .ok (.multu (rsOf w) (rtOf w))
  | 0x1A#6 => .ok (.div (rsOf w) (rtOf w))
  | 0x1B#6 => .ok (.divu (rsOf w) (rtOf w))
  | 0x1C#6 => .ok (.dmult (rsOf w) (rtOf w))
  | 0x1D#6 => .ok (.dmultu (rsOf w) (rtOf w))
  | 0x1E#6 => .ok (.ddiv (rsOf w) (rtOf w))
  | 0x1F#6 => .ok (.ddivu (rsOf w) (rtOf w))
  | 0x20#6 => .ok (.add (rsOf w) (rtOf w) (rdOf w))
  | 0x21#6 => .ok (.addu (rsOf w) (rtOf w) (rdOf w))
  | 0x22#6 => .ok (.sub (rsOf w) (rtOf w) (rdOf w))
  | 0x23#6 => .ok (.subu (rsOf w) (rtOf w) (rdOf w))
  | 0x24#6 => .ok (.and (rsOf w) (rtOf w) (rdOf w))
  | 0x25#6 => .ok (.or (rsOf w) (rtOf w) (rdOf w))
  | 0x26#6 => .ok (.xor (rsOf w) (rtOf w) (rdOf w))
  | 0x27#6 => .ok (.nor (rsOf w) (rtOf w) (rdOf w))
  | 0x2A#6 => .ok (.slt (rsOf w) (rtOf w) (rdOf w))
  | 0x2B#6 => .ok (.sltu (rsOf w) (rtOf w) (rdOf w))
  | 0x2C#6 => .ok (.dadd (rsOf w) (rtOf w) (rdOf w))
  | 0x2D#6 => .ok (.daddu (rsOf w) (rtOf w) (rdOf w))
  | 0x2E#6 => .ok (.dsub (rsOf w) (rtOf w) (rdOf w))
  | 0x2F#6 => .ok (.dsubu (rsOf w) (rtOf w) (rdOf w))
  | 0x30#6 => .ok (.tge (rsOf w) (rtOf w) (tcodeOf w))
  | 0x31#6 => .ok (.tgeu (rsOf w) (rtOf w) (tcodeOf w))
  | 0x32#6 => .ok (.tlt (rsOf w) (rtOf w) (tcodeOf w))
  | 0x33#6 => .ok (.tltu (rsOf w) (rtOf w) (tcodeOf w))
  | 0x34#6 => .ok (.teq (rsOf w) (rtOf w) (tcodeOf w))
  | 0x36#6 => .ok (.tne (rsOf w) (rtOf w) (tcodeOf w))
  | 0x38#6 => .ok (.dsll (rtOf w) (rdOf w) (saOf w))
  | 0x3A#6 => .ok (.dsrl (rtOf w) (rdOf w) (saOf w))
  | 0x3B#6 => .ok (.dsra (rtOf w) (rdOf w) (saOf w))
  | 0x3C#6 => .ok (.dsll32 (rtOf w) (rdOf w) (saOf w))
  | 0x3E#6 => .ok (.dsrl32 (rtOf w) (rdOf w) (saOf w))
  | 0x3F#6 => .ok (.dsra32 (rtOf w) (rdOf w) (saOf w))
  | _ => .error .reservedSpecial

/-- The REGIMM map, by rt (R156). -/
def decodeRegimm (w : Word) : Except DecodeError Instr :=
  match rtOf w with
  | 0x00#5 => .ok (.bltz (rsOf w) (immOf w))
  | 0x01#5 => .ok (.bgez (rsOf w) (immOf w))
  | 0x02#5 => .ok (.bltzl (rsOf w) (immOf w))
  | 0x03#5 => .ok (.bgezl (rsOf w) (immOf w))
  | 0x08#5 => .ok (.tgei (rsOf w) (immOf w))
  | 0x09#5 => .ok (.tgeiu (rsOf w) (immOf w))
  | 0x0A#5 => .ok (.tlti (rsOf w) (immOf w))
  | 0x0B#5 => .ok (.tltiu (rsOf w) (immOf w))
  | 0x0C#5 => .ok (.teqi (rsOf w) (immOf w))
  | 0x0E#5 => .ok (.tnei (rsOf w) (immOf w))
  | 0x10#5 => .ok (.bltzal (rsOf w) (immOf w))
  | 0x11#5 => .ok (.bgezal (rsOf w) (immOf w))
  | 0x12#5 => .ok (.bltzall (rsOf w) (immOf w))
  | 0x13#5 => .ok (.bgezall (rsOf w) (immOf w))
  | _ => .error .reservedRegimm

/-- The CO functions, by funct (R157). -/
def decodeCo (w : Word) : Except DecodeError Instr :=
  match functOf w with
  | 0x01#6 => .ok (.tlbr)
  | 0x02#6 => .ok (.tlbwi)
  | 0x06#6 => .ok (.tlbwr)
  | 0x08#6 => .ok (.tlbp)
  | 0x18#6 => .ok (.eret)
  | _ => .error .reservedCo

/-- The COP0 map: the CO functions where rs[4] = 1, else by rs (R157, R159). -/
def decodeCop0 (w : Word) : Except DecodeError Instr :=
  if (rsOf w).getLsbD 4 then decodeCo w
  else
    match rsOf w with
    | 0x00#5 => .ok (.mfc0 (rtOf w) (rdOf w))
    | 0x01#5 => .ok (.dmfc0 (rtOf w) (rdOf w))
    | 0x04#5 => .ok (.mtc0 (rtOf w) (rdOf w))
    | 0x05#5 => .ok (.dmtc0 (rtOf w) (rdOf w))
    | _ => .error .reservedCop0

/-- The instruction that a word encodes (R159), by the primary opcode map (R154). -/
def decodeWord (w : Word) : Except DecodeError Instr :=
  match opOf w with
  | 0x00#6 => decodeSpecial w
  | 0x01#6 => decodeRegimm w
  | 0x10#6 => decodeCop0 w
  | 0x02#6 => .ok (.j (indexOf w))
  | 0x03#6 => .ok (.jal (indexOf w))
  | 0x04#6 => .ok (.beq (rsOf w) (rtOf w) (immOf w))
  | 0x05#6 => .ok (.bne (rsOf w) (rtOf w) (immOf w))
  | 0x06#6 => .ok (.blez (rsOf w) (immOf w))
  | 0x07#6 => .ok (.bgtz (rsOf w) (immOf w))
  | 0x08#6 => .ok (.addi (rsOf w) (rtOf w) (immOf w))
  | 0x09#6 => .ok (.addiu (rsOf w) (rtOf w) (immOf w))
  | 0x0A#6 => .ok (.slti (rsOf w) (rtOf w) (immOf w))
  | 0x0B#6 => .ok (.sltiu (rsOf w) (rtOf w) (immOf w))
  | 0x0C#6 => .ok (.andi (rsOf w) (rtOf w) (immOf w))
  | 0x0D#6 => .ok (.ori (rsOf w) (rtOf w) (immOf w))
  | 0x0E#6 => .ok (.xori (rsOf w) (rtOf w) (immOf w))
  | 0x0F#6 => .ok (.lui (rtOf w) (immOf w))
  | 0x11#6 => .ok (.cop1 (indexOf w))
  | 0x12#6 => .ok (.cop2 (indexOf w))
  | 0x13#6 => .ok (.cop3 (indexOf w))
  | 0x14#6 => .ok (.beql (rsOf w) (rtOf w) (immOf w))
  | 0x15#6 => .ok (.bnel (rsOf w) (rtOf w) (immOf w))
  | 0x16#6 => .ok (.blezl (rsOf w) (immOf w))
  | 0x17#6 => .ok (.bgtzl (rsOf w) (immOf w))
  | 0x18#6 => .ok (.daddi (rsOf w) (rtOf w) (immOf w))
  | 0x19#6 => .ok (.daddiu (rsOf w) (rtOf w) (immOf w))
  | 0x1A#6 => .ok (.ldl (rsOf w) (rtOf w) (immOf w))
  | 0x1B#6 => .ok (.ldr (rsOf w) (rtOf w) (immOf w))
  | 0x20#6 => .ok (.lb (rsOf w) (rtOf w) (immOf w))
  | 0x21#6 => .ok (.lh (rsOf w) (rtOf w) (immOf w))
  | 0x22#6 => .ok (.lwl (rsOf w) (rtOf w) (immOf w))
  | 0x23#6 => .ok (.lw (rsOf w) (rtOf w) (immOf w))
  | 0x24#6 => .ok (.lbu (rsOf w) (rtOf w) (immOf w))
  | 0x25#6 => .ok (.lhu (rsOf w) (rtOf w) (immOf w))
  | 0x26#6 => .ok (.lwr (rsOf w) (rtOf w) (immOf w))
  | 0x27#6 => .ok (.lwu (rsOf w) (rtOf w) (immOf w))
  | 0x28#6 => .ok (.sb (rsOf w) (rtOf w) (immOf w))
  | 0x29#6 => .ok (.sh (rsOf w) (rtOf w) (immOf w))
  | 0x2A#6 => .ok (.swl (rsOf w) (rtOf w) (immOf w))
  | 0x2B#6 => .ok (.sw (rsOf w) (rtOf w) (immOf w))
  | 0x2C#6 => .ok (.sdl (rsOf w) (rtOf w) (immOf w))
  | 0x2D#6 => .ok (.sdr (rsOf w) (rtOf w) (immOf w))
  | 0x2E#6 => .ok (.swr (rsOf w) (rtOf w) (immOf w))
  | 0x2F#6 => .ok (.cache (rsOf w) (rtOf w) (immOf w))
  | 0x30#6 => .ok (.ll (rsOf w) (rtOf w) (immOf w))
  | 0x31#6 => .ok (.lwc1 (rsOf w) (rtOf w) (immOf w))
  | 0x32#6 => .ok (.lwc2 (rsOf w) (rtOf w) (immOf w))
  | 0x34#6 => .ok (.lld (rsOf w) (rtOf w) (immOf w))
  | 0x35#6 => .ok (.ldc1 (rsOf w) (rtOf w) (immOf w))
  | 0x36#6 => .ok (.ldc2 (rsOf w) (rtOf w) (immOf w))
  | 0x37#6 => .ok (.ld (rsOf w) (rtOf w) (immOf w))
  | 0x38#6 => .ok (.sc (rsOf w) (rtOf w) (immOf w))
  | 0x39#6 => .ok (.swc1 (rsOf w) (rtOf w) (immOf w))
  | 0x3A#6 => .ok (.swc2 (rsOf w) (rtOf w) (immOf w))
  | 0x3C#6 => .ok (.scd (rsOf w) (rtOf w) (immOf w))
  | 0x3D#6 => .ok (.sdc1 (rsOf w) (rtOf w) (immOf w))
  | 0x3E#6 => .ok (.sdc2 (rsOf w) (rtOf w) (immOf w))
  | 0x3F#6 => .ok (.sd (rsOf w) (rtOf w) (immOf w))
  | _ => .error .reservedPrimary

/-- The 32-bit big-endian word made of four bytes, the first at the lowest address (R150). -/
def wordOfBytes (b0 b1 b2 b3 : Byte) : Word := b0 ++ b1 ++ b2 ++ b3

/-- The four bytes of a word in the order memory holds them, most significant first (R150). -/
def bytesOfWord (w : Word) : List Byte :=
  [w.extractLsb' 24 8, w.extractLsb' 16 8, w.extractLsb' 8 8, w.extractLsb' 0 8]

/-- Decoding of bytes: the instruction that the first four encode, and the rest. -/
def decodeBytes : List Byte → Except DecodeError (Instr × List Byte)
  | b0 :: b1 :: b2 :: b3 :: rest =>
    match decodeWord (wordOfBytes b0 b1 b2 b3) with
    | .ok i => .ok (i, rest)
    | .error e => .error e
  | _ => .error .truncated

/-- The instruction the decoder reads from an opcode-table word `w`. Every row has 32 bits, one word, so
`nbits` is 32 and the word is laid out in the big-endian order of a fetch. -/
def decodeTableWord (_nbits w : Nat) : Option Instr :=
  match decodeBytes (bytesOfWord (BitVec.ofNat 32 w)) with
  | .ok (i, _) => some i
  | .error _ => none

-- The formats of R151, put together field by field, most significant first.

/-- R-type. -/
def formR (op : BitVec 6) (rs rt rd : RegNum) (sa : BitVec 5) (funct : BitVec 6) : Word :=
  op ++ rs ++ rt ++ rd ++ sa ++ funct

/-- I-type. -/
def formI (op : BitVec 6) (rs rt : RegNum) (imm : BitVec 16) : Word := op ++ rs ++ rt ++ imm

/-- J-type; also the form of the coprocessor 1 to 3 operations. -/
def formJ (op : BitVec 6) (index : BitVec 26) : Word := op ++ index

/-- The form of SYSCALL and BREAK. -/
def formCode (code : BitVec 20) (funct : BitVec 6) : Word := 0x00#6 ++ code ++ funct

/-- The form of the register traps. -/
def formTrap (rs rt : RegNum) (code : BitVec 10) (funct : BitVec 6) : Word :=
  0x00#6 ++ rs ++ rt ++ code ++ funct

/-- The word of an instruction, with zeros in the bits that the decoder ignores. -/
def encode : Instr → Word
  | .add rs rt rd => formR 0x00#6 rs rt rd 0#5 0x20#6
  | .addu rs rt rd => formR 0x00#6 rs rt rd 0#5 0x21#6
  | .sub rs rt rd => formR 0x00#6 rs rt rd 0#5 0x22#6
  | .subu rs rt rd => formR 0x00#6 rs rt rd 0#5 0x23#6
  | .dadd rs rt rd => formR 0x00#6 rs rt rd 0#5 0x2C#6
  | .daddu rs rt rd => formR 0x00#6 rs rt rd 0#5 0x2D#6
  | .dsub rs rt rd => formR 0x00#6 rs rt rd 0#5 0x2E#6
  | .dsubu rs rt rd => formR 0x00#6 rs rt rd 0#5 0x2F#6
  | .addi rs rt imm => formI 0x08#6 rs rt imm
  | .addiu rs rt imm => formI 0x09#6 rs rt imm
  | .daddi rs rt imm => formI 0x18#6 rs rt imm
  | .daddiu rs rt imm => formI 0x19#6 rs rt imm
  | .slt rs rt rd => formR 0x00#6 rs rt rd 0#5 0x2A#6
  | .sltu rs rt rd => formR 0x00#6 rs rt rd 0#5 0x2B#6
  | .slti rs rt imm => formI 0x0A#6 rs rt imm
  | .sltiu rs rt imm => formI 0x0B#6 rs rt imm
  | .and rs rt rd => formR 0x00#6 rs rt rd 0#5 0x24#6
  | .or rs rt rd => formR 0x00#6 rs rt rd 0#5 0x25#6
  | .xor rs rt rd => formR 0x00#6 rs rt rd 0#5 0x26#6
  | .nor rs rt rd => formR 0x00#6 rs rt rd 0#5 0x27#6
  | .andi rs rt imm => formI 0x0C#6 rs rt imm
  | .ori rs rt imm => formI 0x0D#6 rs rt imm
  | .xori rs rt imm => formI 0x0E#6 rs rt imm
  | .lui rt imm => formI 0x0F#6 0#5 rt imm
  | .sll rt rd sa => formR 0x00#6 0#5 rt rd sa 0x00#6
  | .srl rt rd sa => formR 0x00#6 0#5 rt rd sa 0x02#6
  | .sra rt rd sa => formR 0x00#6 0#5 rt rd sa 0x03#6
  | .sllv rs rt rd => formR 0x00#6 rs rt rd 0#5 0x04#6
  | .srlv rs rt rd => formR 0x00#6 rs rt rd 0#5 0x06#6
  | .srav rs rt rd => formR 0x00#6 rs rt rd 0#5 0x07#6
  | .dsll rt rd sa => formR 0x00#6 0#5 rt rd sa 0x38#6
  | .dsrl rt rd sa => formR 0x00#6 0#5 rt rd sa 0x3A#6
  | .dsra rt rd sa => formR 0x00#6 0#5 rt rd sa 0x3B#6
  | .dsll32 rt rd sa => formR 0x00#6 0#5 rt rd sa 0x3C#6
  | .dsrl32 rt rd sa => formR 0x00#6 0#5 rt rd sa 0x3E#6
  | .dsra32 rt rd sa => formR 0x00#6 0#5 rt rd sa 0x3F#6
  | .dsllv rs rt rd => formR 0x00#6 rs rt rd 0#5 0x14#6
  | .dsrlv rs rt rd => formR 0x00#6 rs rt rd 0#5 0x16#6
  | .dsrav rs rt rd => formR 0x00#6 rs rt rd 0#5 0x17#6
  | .mfhi rd => formR 0x00#6 0#5 0#5 rd 0#5 0x10#6
  | .mflo rd => formR 0x00#6 0#5 0#5 rd 0#5 0x12#6
  | .mthi rs => formR 0x00#6 rs 0#5 0#5 0#5 0x11#6
  | .mtlo rs => formR 0x00#6 rs 0#5 0#5 0#5 0x13#6
  | .mult rs rt => formR 0x00#6 rs rt 0#5 0#5 0x18#6
  | .multu rs rt => formR 0x00#6 rs rt 0#5 0#5 0x19#6
  | .div rs rt => formR 0x00#6 rs rt 0#5 0#5 0x1A#6
  | .divu rs rt => formR 0x00#6 rs rt 0#5 0#5 0x1B#6
  | .dmult rs rt => formR 0x00#6 rs rt 0#5 0#5 0x1C#6
  | .dmultu rs rt => formR 0x00#6 rs rt 0#5 0#5 0x1D#6
  | .ddiv rs rt => formR 0x00#6 rs rt 0#5 0#5 0x1E#6
  | .ddivu rs rt => formR 0x00#6 rs rt 0#5 0#5 0x1F#6
  | .j index => formJ 0x02#6 index
  | .jal index => formJ 0x03#6 index
  | .jr rs => formR 0x00#6 rs 0#5 0#5 0#5 0x08#6
  | .jalr rs rd => formR 0x00#6 rs 0#5 rd 0#5 0x09#6
  | .beq rs rt offset => formI 0x04#6 rs rt offset
  | .bne rs rt offset => formI 0x05#6 rs rt offset
  | .blez rs offset => formI 0x06#6 rs 0#5 offset
  | .bgtz rs offset => formI 0x07#6 rs 0#5 offset
  | .bltz rs offset => formI 0x01#6 rs 0x00#5 offset
  | .bgez rs offset => formI 0x01#6 rs 0x01#5 offset
  | .bltzal rs offset => formI 0x01#6 rs 0x10#5 offset
  | .bgezal rs offset => formI 0x01#6 rs 0x11#5 offset
  | .beql rs rt offset => formI 0x14#6 rs rt offset
  | .bnel rs rt offset => formI 0x15#6 rs rt offset
  | .blezl rs offset => formI 0x16#6 rs 0#5 offset
  | .bgtzl rs offset => formI 0x17#6 rs 0#5 offset
  | .bltzl rs offset => formI 0x01#6 rs 0x02#5 offset
  | .bgezl rs offset => formI 0x01#6 rs 0x03#5 offset
  | .bltzall rs offset => formI 0x01#6 rs 0x12#5 offset
  | .bgezall rs offset => formI 0x01#6 rs 0x13#5 offset
  | .lb base rt offset => formI 0x20#6 base rt offset
  | .lbu base rt offset => formI 0x24#6 base rt offset
  | .lh base rt offset => formI 0x21#6 base rt offset
  | .lhu base rt offset => formI 0x25#6 base rt offset
  | .lw base rt offset => formI 0x23#6 base rt offset
  | .lwu base rt offset => formI 0x27#6 base rt offset
  | .ld base rt offset => formI 0x37#6 base rt offset
  | .lwl base rt offset => formI 0x22#6 base rt offset
  | .lwr base rt offset => formI 0x26#6 base rt offset
  | .ldl base rt offset => formI 0x1A#6 base rt offset
  | .ldr base rt offset => formI 0x1B#6 base rt offset
  | .sb base rt offset => formI 0x28#6 base rt offset
  | .sh base rt offset => formI 0x29#6 base rt offset
  | .sw base rt offset => formI 0x2B#6 base rt offset
  | .sd base rt offset => formI 0x3F#6 base rt offset
  | .swl base rt offset => formI 0x2A#6 base rt offset
  | .swr base rt offset => formI 0x2E#6 base rt offset
  | .sdl base rt offset => formI 0x2C#6 base rt offset
  | .sdr base rt offset => formI 0x2D#6 base rt offset
  | .ll base rt offset => formI 0x30#6 base rt offset
  | .lld base rt offset => formI 0x34#6 base rt offset
  | .sc base rt offset => formI 0x38#6 base rt offset
  | .scd base rt offset => formI 0x3C#6 base rt offset
  | .sync stype => formR 0x00#6 0#5 0#5 0#5 stype 0x0F#6
  | .cache base op offset => formI 0x2F#6 base op offset
  | .syscall code => formCode code 0x0C#6
  | .breakpoint code => formCode code 0x0D#6
  | .tge rs rt code => formTrap rs rt code 0x30#6
  | .tgeu rs rt code => formTrap rs rt code 0x31#6
  | .tlt rs rt code => formTrap rs rt code 0x32#6
  | .tltu rs rt code => formTrap rs rt code 0x33#6
  | .teq rs rt code => formTrap rs rt code 0x34#6
  | .tne rs rt code => formTrap rs rt code 0x36#6
  | .tgei rs imm => formI 0x01#6 rs 0x08#5 imm
  | .tgeiu rs imm => formI 0x01#6 rs 0x09#5 imm
  | .tlti rs imm => formI 0x01#6 rs 0x0A#5 imm
  | .tltiu rs imm => formI 0x01#6 rs 0x0B#5 imm
  | .teqi rs imm => formI 0x01#6 rs 0x0C#5 imm
  | .tnei rs imm => formI 0x01#6 rs 0x0E#5 imm
  | .mfc0 rt rd => formR 0x10#6 0x00#5 rt rd 0#5 0#6
  | .dmfc0 rt rd => formR 0x10#6 0x01#5 rt rd 0#5 0#6
  | .mtc0 rt rd => formR 0x10#6 0x04#5 rt rd 0#5 0#6
  | .dmtc0 rt rd => formR 0x10#6 0x05#5 rt rd 0#5 0#6
  | .eret => formR 0x10#6 0x10#5 0#5 0#5 0#5 0x18#6
  | .cop1 cofun => formJ 0x11#6 cofun
  | .cop2 cofun => formJ 0x12#6 cofun
  | .cop3 cofun => formJ 0x13#6 cofun
  | .lwc1 base rt offset => formI 0x31#6 base rt offset
  | .lwc2 base rt offset => formI 0x32#6 base rt offset
  | .ldc1 base rt offset => formI 0x35#6 base rt offset
  | .ldc2 base rt offset => formI 0x36#6 base rt offset
  | .swc1 base rt offset => formI 0x39#6 base rt offset
  | .swc2 base rt offset => formI 0x3A#6 base rt offset
  | .sdc1 base rt offset => formI 0x3D#6 base rt offset
  | .sdc2 base rt offset => formI 0x3E#6 base rt offset
  | .tlbr => formR 0x10#6 0x10#5 0#5 0#5 0#5 0x01#6
  | .tlbwi => formR 0x10#6 0x10#5 0#5 0#5 0#5 0x02#6
  | .tlbwr => formR 0x10#6 0x10#5 0#5 0#5 0#5 0x06#6
  | .tlbp => formR 0x10#6 0x10#5 0#5 0#5 0#5 0x08#6

/-- The mask of an instruction's row of spec/opcode_table.json: the bits that select it (R159). -/
def Instr.tableMask : Instr → Word
  | .add _ _ _ => 0xFC00003F#32
  | .addu _ _ _ => 0xFC00003F#32
  | .sub _ _ _ => 0xFC00003F#32
  | .subu _ _ _ => 0xFC00003F#32
  | .dadd _ _ _ => 0xFC00003F#32
  | .daddu _ _ _ => 0xFC00003F#32
  | .dsub _ _ _ => 0xFC00003F#32
  | .dsubu _ _ _ => 0xFC00003F#32
  | .addi _ _ _ => 0xFC000000#32
  | .addiu _ _ _ => 0xFC000000#32
  | .daddi _ _ _ => 0xFC000000#32
  | .daddiu _ _ _ => 0xFC000000#32
  | .slt _ _ _ => 0xFC00003F#32
  | .sltu _ _ _ => 0xFC00003F#32
  | .slti _ _ _ => 0xFC000000#32
  | .sltiu _ _ _ => 0xFC000000#32
  | .and _ _ _ => 0xFC00003F#32
  | .or _ _ _ => 0xFC00003F#32
  | .xor _ _ _ => 0xFC00003F#32
  | .nor _ _ _ => 0xFC00003F#32
  | .andi _ _ _ => 0xFC000000#32
  | .ori _ _ _ => 0xFC000000#32
  | .xori _ _ _ => 0xFC000000#32
  | .lui _ _ => 0xFC000000#32
  | .sll _ _ _ => 0xFC00003F#32
  | .srl _ _ _ => 0xFC00003F#32
  | .sra _ _ _ => 0xFC00003F#32
  | .sllv _ _ _ => 0xFC00003F#32
  | .srlv _ _ _ => 0xFC00003F#32
  | .srav _ _ _ => 0xFC00003F#32
  | .dsll _ _ _ => 0xFC00003F#32
  | .dsrl _ _ _ => 0xFC00003F#32
  | .dsra _ _ _ => 0xFC00003F#32
  | .dsll32 _ _ _ => 0xFC00003F#32
  | .dsrl32 _ _ _ => 0xFC00003F#32
  | .dsra32 _ _ _ => 0xFC00003F#32
  | .dsllv _ _ _ => 0xFC00003F#32
  | .dsrlv _ _ _ => 0xFC00003F#32
  | .dsrav _ _ _ => 0xFC00003F#32
  | .mfhi _ => 0xFC00003F#32
  | .mflo _ => 0xFC00003F#32
  | .mthi _ => 0xFC00003F#32
  | .mtlo _ => 0xFC00003F#32
  | .mult _ _ => 0xFC00003F#32
  | .multu _ _ => 0xFC00003F#32
  | .div _ _ => 0xFC00003F#32
  | .divu _ _ => 0xFC00003F#32
  | .dmult _ _ => 0xFC00003F#32
  | .dmultu _ _ => 0xFC00003F#32
  | .ddiv _ _ => 0xFC00003F#32
  | .ddivu _ _ => 0xFC00003F#32
  | .j _ => 0xFC000000#32
  | .jal _ => 0xFC000000#32
  | .jr _ => 0xFC00003F#32
  | .jalr _ _ => 0xFC00003F#32
  | .beq _ _ _ => 0xFC000000#32
  | .bne _ _ _ => 0xFC000000#32
  | .blez _ _ => 0xFC000000#32
  | .bgtz _ _ => 0xFC000000#32
  | .bltz _ _ => 0xFC1F0000#32
  | .bgez _ _ => 0xFC1F0000#32
  | .bltzal _ _ => 0xFC1F0000#32
  | .bgezal _ _ => 0xFC1F0000#32
  | .beql _ _ _ => 0xFC000000#32
  | .bnel _ _ _ => 0xFC000000#32
  | .blezl _ _ => 0xFC000000#32
  | .bgtzl _ _ => 0xFC000000#32
  | .bltzl _ _ => 0xFC1F0000#32
  | .bgezl _ _ => 0xFC1F0000#32
  | .bltzall _ _ => 0xFC1F0000#32
  | .bgezall _ _ => 0xFC1F0000#32
  | .lb _ _ _ => 0xFC000000#32
  | .lbu _ _ _ => 0xFC000000#32
  | .lh _ _ _ => 0xFC000000#32
  | .lhu _ _ _ => 0xFC000000#32
  | .lw _ _ _ => 0xFC000000#32
  | .lwu _ _ _ => 0xFC000000#32
  | .ld _ _ _ => 0xFC000000#32
  | .lwl _ _ _ => 0xFC000000#32
  | .lwr _ _ _ => 0xFC000000#32
  | .ldl _ _ _ => 0xFC000000#32
  | .ldr _ _ _ => 0xFC000000#32
  | .sb _ _ _ => 0xFC000000#32
  | .sh _ _ _ => 0xFC000000#32
  | .sw _ _ _ => 0xFC000000#32
  | .sd _ _ _ => 0xFC000000#32
  | .swl _ _ _ => 0xFC000000#32
  | .swr _ _ _ => 0xFC000000#32
  | .sdl _ _ _ => 0xFC000000#32
  | .sdr _ _ _ => 0xFC000000#32
  | .ll _ _ _ => 0xFC000000#32
  | .lld _ _ _ => 0xFC000000#32
  | .sc _ _ _ => 0xFC000000#32
  | .scd _ _ _ => 0xFC000000#32
  | .sync _ => 0xFC00003F#32
  | .cache _ _ _ => 0xFC000000#32
  | .syscall _ => 0xFC00003F#32
  | .breakpoint _ => 0xFC00003F#32
  | .tge _ _ _ => 0xFC00003F#32
  | .tgeu _ _ _ => 0xFC00003F#32
  | .tlt _ _ _ => 0xFC00003F#32
  | .tltu _ _ _ => 0xFC00003F#32
  | .teq _ _ _ => 0xFC00003F#32
  | .tne _ _ _ => 0xFC00003F#32
  | .tgei _ _ => 0xFC1F0000#32
  | .tgeiu _ _ => 0xFC1F0000#32
  | .tlti _ _ => 0xFC1F0000#32
  | .tltiu _ _ => 0xFC1F0000#32
  | .teqi _ _ => 0xFC1F0000#32
  | .tnei _ _ => 0xFC1F0000#32
  | .mfc0 _ _ => 0xFFE00000#32
  | .dmfc0 _ _ => 0xFFE00000#32
  | .mtc0 _ _ => 0xFFE00000#32
  | .dmtc0 _ _ => 0xFFE00000#32
  | .eret => 0xFE00003F#32
  | .cop1 _ => 0xFC000000#32
  | .cop2 _ => 0xFC000000#32
  | .cop3 _ => 0xFC000000#32
  | .lwc1 _ _ _ => 0xFC000000#32
  | .lwc2 _ _ _ => 0xFC000000#32
  | .ldc1 _ _ _ => 0xFC000000#32
  | .ldc2 _ _ _ => 0xFC000000#32
  | .swc1 _ _ _ => 0xFC000000#32
  | .swc2 _ _ _ => 0xFC000000#32
  | .sdc1 _ _ _ => 0xFC000000#32
  | .sdc2 _ _ _ => 0xFC000000#32
  | .tlbr => 0xFE00003F#32
  | .tlbwi => 0xFE00003F#32
  | .tlbwr => 0xFE00003F#32
  | .tlbp => 0xFE00003F#32

/-- The match of an instruction's row of spec/opcode_table.json: the value of those bits (R160). -/
def Instr.tableMatch : Instr → Word
  | .add _ _ _ => 0x00000020#32
  | .addu _ _ _ => 0x00000021#32
  | .sub _ _ _ => 0x00000022#32
  | .subu _ _ _ => 0x00000023#32
  | .dadd _ _ _ => 0x0000002C#32
  | .daddu _ _ _ => 0x0000002D#32
  | .dsub _ _ _ => 0x0000002E#32
  | .dsubu _ _ _ => 0x0000002F#32
  | .addi _ _ _ => 0x20000000#32
  | .addiu _ _ _ => 0x24000000#32
  | .daddi _ _ _ => 0x60000000#32
  | .daddiu _ _ _ => 0x64000000#32
  | .slt _ _ _ => 0x0000002A#32
  | .sltu _ _ _ => 0x0000002B#32
  | .slti _ _ _ => 0x28000000#32
  | .sltiu _ _ _ => 0x2C000000#32
  | .and _ _ _ => 0x00000024#32
  | .or _ _ _ => 0x00000025#32
  | .xor _ _ _ => 0x00000026#32
  | .nor _ _ _ => 0x00000027#32
  | .andi _ _ _ => 0x30000000#32
  | .ori _ _ _ => 0x34000000#32
  | .xori _ _ _ => 0x38000000#32
  | .lui _ _ => 0x3C000000#32
  | .sll _ _ _ => 0x00000000#32
  | .srl _ _ _ => 0x00000002#32
  | .sra _ _ _ => 0x00000003#32
  | .sllv _ _ _ => 0x00000004#32
  | .srlv _ _ _ => 0x00000006#32
  | .srav _ _ _ => 0x00000007#32
  | .dsll _ _ _ => 0x00000038#32
  | .dsrl _ _ _ => 0x0000003A#32
  | .dsra _ _ _ => 0x0000003B#32
  | .dsll32 _ _ _ => 0x0000003C#32
  | .dsrl32 _ _ _ => 0x0000003E#32
  | .dsra32 _ _ _ => 0x0000003F#32
  | .dsllv _ _ _ => 0x00000014#32
  | .dsrlv _ _ _ => 0x00000016#32
  | .dsrav _ _ _ => 0x00000017#32
  | .mfhi _ => 0x00000010#32
  | .mflo _ => 0x00000012#32
  | .mthi _ => 0x00000011#32
  | .mtlo _ => 0x00000013#32
  | .mult _ _ => 0x00000018#32
  | .multu _ _ => 0x00000019#32
  | .div _ _ => 0x0000001A#32
  | .divu _ _ => 0x0000001B#32
  | .dmult _ _ => 0x0000001C#32
  | .dmultu _ _ => 0x0000001D#32
  | .ddiv _ _ => 0x0000001E#32
  | .ddivu _ _ => 0x0000001F#32
  | .j _ => 0x08000000#32
  | .jal _ => 0x0C000000#32
  | .jr _ => 0x00000008#32
  | .jalr _ _ => 0x00000009#32
  | .beq _ _ _ => 0x10000000#32
  | .bne _ _ _ => 0x14000000#32
  | .blez _ _ => 0x18000000#32
  | .bgtz _ _ => 0x1C000000#32
  | .bltz _ _ => 0x04000000#32
  | .bgez _ _ => 0x04010000#32
  | .bltzal _ _ => 0x04100000#32
  | .bgezal _ _ => 0x04110000#32
  | .beql _ _ _ => 0x50000000#32
  | .bnel _ _ _ => 0x54000000#32
  | .blezl _ _ => 0x58000000#32
  | .bgtzl _ _ => 0x5C000000#32
  | .bltzl _ _ => 0x04020000#32
  | .bgezl _ _ => 0x04030000#32
  | .bltzall _ _ => 0x04120000#32
  | .bgezall _ _ => 0x04130000#32
  | .lb _ _ _ => 0x80000000#32
  | .lbu _ _ _ => 0x90000000#32
  | .lh _ _ _ => 0x84000000#32
  | .lhu _ _ _ => 0x94000000#32
  | .lw _ _ _ => 0x8C000000#32
  | .lwu _ _ _ => 0x9C000000#32
  | .ld _ _ _ => 0xDC000000#32
  | .lwl _ _ _ => 0x88000000#32
  | .lwr _ _ _ => 0x98000000#32
  | .ldl _ _ _ => 0x68000000#32
  | .ldr _ _ _ => 0x6C000000#32
  | .sb _ _ _ => 0xA0000000#32
  | .sh _ _ _ => 0xA4000000#32
  | .sw _ _ _ => 0xAC000000#32
  | .sd _ _ _ => 0xFC000000#32
  | .swl _ _ _ => 0xA8000000#32
  | .swr _ _ _ => 0xB8000000#32
  | .sdl _ _ _ => 0xB0000000#32
  | .sdr _ _ _ => 0xB4000000#32
  | .ll _ _ _ => 0xC0000000#32
  | .lld _ _ _ => 0xD0000000#32
  | .sc _ _ _ => 0xE0000000#32
  | .scd _ _ _ => 0xF0000000#32
  | .sync _ => 0x0000000F#32
  | .cache _ _ _ => 0xBC000000#32
  | .syscall _ => 0x0000000C#32
  | .breakpoint _ => 0x0000000D#32
  | .tge _ _ _ => 0x00000030#32
  | .tgeu _ _ _ => 0x00000031#32
  | .tlt _ _ _ => 0x00000032#32
  | .tltu _ _ _ => 0x00000033#32
  | .teq _ _ _ => 0x00000034#32
  | .tne _ _ _ => 0x00000036#32
  | .tgei _ _ => 0x04080000#32
  | .tgeiu _ _ => 0x04090000#32
  | .tlti _ _ => 0x040A0000#32
  | .tltiu _ _ => 0x040B0000#32
  | .teqi _ _ => 0x040C0000#32
  | .tnei _ _ => 0x040E0000#32
  | .mfc0 _ _ => 0x40000000#32
  | .dmfc0 _ _ => 0x40200000#32
  | .mtc0 _ _ => 0x40800000#32
  | .dmtc0 _ _ => 0x40A00000#32
  | .eret => 0x42000018#32
  | .cop1 _ => 0x44000000#32
  | .cop2 _ => 0x48000000#32
  | .cop3 _ => 0x4C000000#32
  | .lwc1 _ _ _ => 0xC4000000#32
  | .lwc2 _ _ _ => 0xC8000000#32
  | .ldc1 _ _ _ => 0xD4000000#32
  | .ldc2 _ _ _ => 0xD8000000#32
  | .swc1 _ _ _ => 0xE4000000#32
  | .swc2 _ _ _ => 0xE8000000#32
  | .sdc1 _ _ _ => 0xF4000000#32
  | .sdc2 _ _ _ => 0xF8000000#32
  | .tlbr => 0x42000001#32
  | .tlbwi => 0x42000002#32
  | .tlbwr => 0x42000006#32
  | .tlbp => 0x42000008#32

end Sys2Proof
end

