-- ==== Sys2Proof/Machine/Fetch.lean ====
section
/-! DEFINITION. The fetch and decode half of a step (10_state.md R80 to R82; 30_encoding.md R159), and the
placing of an instruction where the next fetch finds it. -/

namespace Sys2Proof.Machine

/-- The exception of a word that names no instruction (30 R159, R163, R164): a COP0 word raises
Coprocessor Unusable where CP0 is not usable, everything else Reserved Instruction. -/
def decodeExn (c : Cp0) (e : DecodeError) : Exn :=
  match e with
  | .reservedCop0 | .reservedCo =>
    if c.usable then .reservedInstruction else .coprocessorUnusable 0
  | .reservedPrimary | .reservedSpecial | .reservedRegimm | .truncated => .reservedInstruction

/-- What fetch and decode give: the instruction, or the exception they raise; each with the state after
the fetch. -/
inductive FetchResult where
  | instr (i : Instr) (s : State)
  | raised (e : Exn) (s : State)

/-- Fetch at pc and decode (10 R81, R82). -/
def fetchDecode (s : State) : FetchResult :=
  match fetch s.pc s with
  | .raised e s' => .raised e s'
  | .ok v s' =>
    match decodeBytes (bytesOfWord (lowWord v)) with
    | .ok (i, _) => .instr i s'
    | .error e => .raised (decodeExn s'.cp0 e) s'

/-- Memory with the four bytes of a word at `pa`, in the order a fetch reads them. -/
def placeWord (m : Memory) (pa : PAddr) (w : Word) : Memory := writeBytes m pa 4 (zext w)

/-- The state with a word stored where the fetch at pc finds it; unchanged where pc has no physical
address. -/
def State.placeAtPc (s : State) (w : Word) : State :=
  match translateAligned s.pc .word .fetch s with
  | .ok pa => { s with mem := placeWord s.mem pa w }
  | .error _ => s

end Sys2Proof.Machine
end

