-- ==== Sys2Proof/Machine/Step.lean ====
section
/-! DEFINITION. One step (10_state.md R80). -/

namespace Sys2Proof.Machine

/-- `step()`: the interrupt check; or fetch, decode and the instruction's meaning, or the exception that
fetch and decode raise; then the Tick (10 R80, R85, R86). -/
def step (s : State) : Host.Outcome State Fault Refusal :=
  if s.cp0.interruptReady then thenTick (raise .interrupt s)
  else
    match fetchDecode s with
    | .instr i s' => thenTick (exec i s')
    | .raised e s' => thenTick (raise e s')

/-- The state with the instruction whose bits are `w` stored where the next step fetches. Every
instruction is one 32-bit word, so `nbits` is 32. -/
def State.withFetchWord (s : State) (_nbits w : Nat) : State := s.placeAtPc (BitVec.ofNat 32 w)

end Sys2Proof.Machine
end

