-- ==== Sys2Proof/WellFormed.lean ====
section
/-! DEFINITION. The checks on what the core is given: its instructions, the parameters it is constructed
from and the map of its bus. -/

namespace Sys2Proof

/-- The check on an instruction. Every value of every register, shift, immediate and code field is valid
(30_encoding.md R153), and the types of `Instr`'s arguments hold exactly the values the fields can take,
so nothing is left to refuse. -/
def Instr.wellFormed (_ : Instr) : Bool := true

/-- The check on the construction parameters (00 R6): TLB_SIZE from 1 to 64 and COUNT_INCREMENT from 1 to
2^32 - 1. PRID and DIV0 are in range by their types. -/
def paramsWellFormed (tlbSize : Nat) (countIncrement : Word) : Bool :=
  decide (1 ≤ tlbSize) && decide (tlbSize ≤ 64) && decide (countIncrement ≠ 0#32)

/-- The check on one region of the bus map: it is not empty, it lies in the 36-bit physical space, and
its ends are multiples of 8, so that no naturally aligned access lies across one (log entry 7). -/
def Region.wellFormed (r : Region) : Bool :=
  decide (0 < r.size) && decide (r.base + r.size ≤ 2 ^ 36) && decide (r.base % 8 = 0) &&
    decide (r.size % 8 = 0)

/-- The check on the bus map: every region of it is well formed. -/
def busWellFormed (bus : List Region) : Bool := bus.all Region.wellFormed

end Sys2Proof
end

