-- ==== Sys2Proof/Machine/HostOps.lean ====
section
/-! DEFINITION. What the host does between steps (70_reset_and_hazards.md R520): construct, reset and the
interrupt lines. These are functions on the state, not steps; `run(n)` is `Host.Core.run`. -/

namespace Sys2Proof.Machine

/-- `construct`: a core in the reset state behind the given bus, or nothing where a parameter is out of
range (00 R6; 70 R520). -/
def construct (tlbSize : Nat) (countIncrement : Word) (mem : Memory) (bus : List Region) : Option State :=
  if paramsWellFormed tlbSize countIncrement then
    some (State.resetWith tlbSize countIncrement mem bus 0)
  else none

/-- `reset()`: the core as R500 says, with its parameters, memory and devices as they were (70 R500,
R502). -/
def hostReset (s : State) : State :=
  State.resetWith s.tlbSize s.countIncrement s.mem s.bus s.busTick

/-- `set_hw_pending(mask)`: Cause.IP7..IP2 take the OR; bits 1:0 of the mask are ignored (60 R476). -/
def setHwPending (mask : BitVec 8) (s : State) : State :=
  s.setCp0 { s.cp0 with
    cause := setField s.cp0.cause 10 (getField s.cp0.cause 10 6 ||| getField mask 2 6) }

/-- `clear_hw_pending(mask)`: Cause.IP7..IP2 take the AND NOT (60 R476). -/
def clearHwPending (mask : BitVec 8) (s : State) : State :=
  s.setCp0 { s.cp0 with
    cause := setField s.cp0.cause 10 (getField s.cp0.cause 10 6 &&& ~~~(getField mask 2 6)) }

end Sys2Proof.Machine
end

