-- ==== Sys2Proof/Safety.lean ====
section
/-! DEFINITION. The terms that the statements about the machine are written in: integers for register
values, big-endian values of memory, what an instruction leaves as it was, the ways it can end, and what
counts as a sound state (`Inv`). They are written from the spec beside the machine and do not call the
meanings. -/

namespace Sys2Proof.Safety

open Sys2Proof.Machine

-- Numbers (00 R8).

/-- The low word of a register as a signed integer. -/
def low32s (v : DWord) : Int := Int.bmod v.toInt (2 ^ 32)

/-- The low word of a register as an unsigned integer. -/
def low32u (v : DWord) : Nat := v.toNat % 2 ^ 32

/-- `sext_32(r[31:0])` of an integer. -/
def word32 (r : Int) : DWord := BitVec.ofInt 64 (Int.bmod r (2 ^ 32))

/-- `r[63:0]` of an integer. -/
def word64 (r : Int) : DWord := BitVec.ofInt 64 r

/-- An integer fits in `n` signed bits (40 R202). -/
def fits (n : Nat) (r : Int) : Prop := -2 ^ (n - 1) ≤ r ∧ r ≤ 2 ^ (n - 1) - 1

/-- 1 or 0. -/
def oneIf (p : Prop) [Decidable p] : DWord := if p then 1#64 else 0#64

/-- `q` and `r` are the quotient rounded toward zero and the remainder of `n` and `d` (00 R8): the
remainder is smaller than the divisor and has the sign of the dividend or is 0. -/
def IsDivision (n d q r : Int) : Prop :=
  n = d * q + r ∧ r.natAbs < d.natAbs ∧ (0 ≤ n → 0 ≤ r) ∧ (n ≤ 0 → r ≤ 0)

/-- The value of the `n` bytes of memory from address `a` on, the first the most significant (20 R101). -/
def bigEndian (m : Memory) (a : Nat) : Nat → Nat
  | 0 => 0
  | n + 1 => bigEndian m a n * 256 + (Memory.read m (a + n)).toNat

-- What stays (the frame).

/-- Every general register reads as before. -/
def SameRegs (s t : State) : Prop := ∀ r, t.reg r = s.reg r

/-- `x[rd] <- v` and nothing else in the register file; nothing at all where rd is x[0] (00 R9). -/
def RegWritten (s t : State) (rd : RegNum) (v : DWord) : Prop :=
  ∀ r, t.reg r = if r = rd ∧ r ≠ 0#5 then v else s.reg r

/-- HI and LO are as before. -/
def SameHiLo (s t : State) : Prop := t.hi = s.hi ∧ t.lo = s.lo

/-- Every byte of memory reads as before. -/
def SameMemory (s t : State) : Prop := ∀ a, Memory.read t.mem a = Memory.read s.mem a

/-- The `n` bytes at `a` hold the low `n` bytes of `v`, the most significant first, and every other byte
of memory reads as before. -/
def BytesStored (s t : State) (a n v : Nat) : Prop :=
  (∀ i, i < n → (Memory.read t.mem (a + i)).toNat = v / 256 ^ (n - 1 - i) % 256) ∧
    ∀ x, (x < a ∨ a + n ≤ x) → Memory.read t.mem x = Memory.read s.mem x

/-- What no instruction changes: the parameters and the map of the bus; and no device was asked. -/
def SameBus (s t : State) : Prop :=
  t.countIncrement = s.countIncrement ∧ t.bus = s.bus ∧ t.busTick = s.busTick

/-- The TLB and LLbit are as before. -/
def SameTlbLl (s t : State) : Prop := t.tlb = s.tlb ∧ t.llbit = s.llbit

/-- Control flow after a sequential instruction (10 R84). -/
def Advances (s t : State) : Prop :=
  t.pc = (if s.branchPending then s.branchTarget else s.pc + 4#64) ∧ t.branchPending = false ∧
    t.branchTarget = s.branchTarget ∧ t.inDelaySlot = false

/-- Control flow after `Branch` or, where `likely` holds, `BranchLikely` (10 R84, 42 R280). -/
def Transfers (s t : State) (likely taken : Bool) (target : DWord) : Prop :=
  t.pc = (if s.branchPending then s.branchTarget
    else if likely ∧ taken = false then s.pc + 8#64 else s.pc + 4#64) ∧
    t.branchPending = taken ∧ t.branchTarget = (if taken then target else s.branchTarget) ∧
    t.inDelaySlot = (taken || !likely)

-- The ways an instruction ends.

/-- The instruction completes and its one effect is `x[rd] <- v`. -/
def WritesReg (r : Result) (s : State) (rd : RegNum) (v : DWord) : Prop :=
  ∃ t, r = .next t ∧ RegWritten s t rd v ∧ SameHiLo s t ∧ t.cp0 = s.cp0 ∧ SameTlbLl s t ∧ SameMemory s t ∧
    SameBus s t ∧ Advances s t

/-- The instruction completes and its one effect is on HI and LO. -/
def WritesHiLo (r : Result) (s : State) (hi lo : DWord) : Prop :=
  ∃ t, r = .next t ∧ SameRegs s t ∧ t.hi = hi ∧ t.lo = lo ∧ t.cp0 = s.cp0 ∧ SameTlbLl s t ∧
    SameMemory s t ∧ SameBus s t ∧ Advances s t

/-- The instruction completes and has no effect but the advance of pc. -/
def OnlyAdvances (r : Result) (s : State) : Prop :=
  ∃ t, r = .next t ∧ SameRegs s t ∧ SameHiLo s t ∧ t.cp0 = s.cp0 ∧ SameTlbLl s t ∧ SameMemory s t ∧
    SameBus s t ∧ Advances s t

/-- The instruction completes and its one effect is on the CP0 registers, which become `c`. -/
def WritesCp0 (r : Result) (s : State) (c : Cp0) : Prop :=
  ∃ t, r = .next t ∧ SameRegs s t ∧ SameHiLo s t ∧ t.cp0 = c ∧ SameTlbLl s t ∧ SameMemory s t ∧ SameBus s t ∧
    Advances s t

/-- The instruction completes, a branch or jump without a link. -/
def Jumps (r : Result) (s : State) (likely taken : Bool) (target : DWord) : Prop :=
  ∃ t, r = .next t ∧ SameRegs s t ∧ SameHiLo s t ∧ t.cp0 = s.cp0 ∧ SameTlbLl s t ∧ SameMemory s t ∧
    SameBus s t ∧ Transfers s t likely taken target

/-- The instruction completes, a branch or jump that writes `pc + 8` to the link register `l`. -/
def JumpsLinking (r : Result) (s : State) (l : RegNum) (likely taken : Bool) (target : DWord) : Prop :=
  ∃ t, r = .next t ∧ RegWritten s t l (s.pc + 8#64) ∧ SameHiLo s t ∧ t.cp0 = s.cp0 ∧ SameTlbLl s t ∧
    SameMemory s t ∧ SameBus s t ∧ Transfers s t likely taken target

/-- The instruction completes and its one effect is to store the low `n` bytes of `v` at `a`. -/
def Stores (r : Result) (s : State) (a n v : Nat) : Prop :=
  ∃ t, r = .next t ∧ SameRegs s t ∧ SameHiLo s t ∧ t.cp0 = s.cp0 ∧ SameTlbLl s t ∧ BytesStored s t a n v ∧
    SameBus s t ∧ Advances s t

-- Exceptions (60 R450, R460 to R466).

/-- A row of the table of exceptions (60 R450, R460): the code, the coprocessor number, the bad address
where there is one, and whether it is a TLB refill. -/
structure ExnRow where
  code : Nat
  ce : Nat
  bad : Option DWord
  refill : Bool

/-- The row of each exception. -/
def rowOf : Exn → ExnRow
  | .interrupt => ⟨0, 0, none, false⟩
  | .tlbModified va => ⟨1, 0, some va, false⟩
  | .tlbLoad va refill => ⟨2, 0, some va, refill⟩
  | .tlbStore va refill => ⟨3, 0, some va, refill⟩
  | .addressLoad va => ⟨4, 0, some va, false⟩
  | .addressStore va => ⟨5, 0, some va, false⟩
  | .busFetch va => ⟨6, 0, some va, false⟩
  | .busData va => ⟨7, 0, some va, false⟩
  | .syscall => ⟨8, 0, none, false⟩
  | .breakpoint => ⟨9, 0, none, false⟩
  | .reservedInstruction => ⟨10, 0, none, false⟩
  | .coprocessorUnusable z => ⟨11, z.toNat, none, false⟩
  | .overflow => ⟨12, 0, none, false⟩
  | .trap => ⟨13, 0, none, false⟩

/-- The address of a TLB exception, code 1, 2 or 3 (60 R464). -/
def ExnRow.tlbVa (x : ExnRow) : Option DWord := if 1 ≤ x.code ∧ x.code ≤ 3 then x.bad else none

/-- The vector (60 R465). -/
def vectorAddress (bev exl refill : Bool) : DWord :=
  match bev, refill && !exl with
  | false, true => 0xFFFFFFFF80000000#64
  | false, false => 0xFFFFFFFF80000180#64
  | true, true => 0xFFFFFFFFBFC00200#64
  | true, false => 0xFFFFFFFFBFC00380#64

/-- `t` is the state after entering exception `e` from `s` (60 R460, R462 to R466). -/
structure Entered (e : Exn) (s t : State) : Prop where
  code : (getField t.cp0.cause 2 5).toNat = (rowOf e).code
  ce : (getField t.cp0.cause 28 2).toNat = (rowOf e).ce
  bd : bitAt t.cp0.cause 31 = if s.cp0.exl then bitAt s.cp0.cause 31 else s.inDelaySlot
  causeRest : ∀ i, i < 2 ∨ 6 < i → i ≠ 28 → i ≠ 29 → i ≠ 31 → bitAt t.cp0.cause i = bitAt s.cp0.cause i
  epc : t.cp0.epc = if s.cp0.exl then s.cp0.epc else if s.inDelaySlot then s.pc - 4#64 else s.pc
  exl : bitAt t.cp0.status 1 = true
  statusRest : ∀ i, i ≠ 1 → bitAt t.cp0.status i = bitAt s.cp0.status i
  badVAddr : t.cp0.badVAddr = (rowOf e).bad.getD s.cp0.badVAddr
  entryHi : t.cp0.entryHi = match (rowOf e).tlbVa with
    | some va => (s.cp0.entryHi &&& 0x3FFFFF0000001FFF#64) ||| (va &&& 0xC00000FFFFFFE000#64)
    | none => s.cp0.entryHi
  context : t.cp0.context = match (rowOf e).tlbVa with
    | some va => (s.cp0.context &&& 0xFFFFFFFFFF80000F#64) ||| ((va >>> 9) &&& 0x00000000007FFFF0#64)
    | none => s.cp0.context
  xContext : t.cp0.xContext = match (rowOf e).tlbVa with
    | some va => (s.cp0.xContext &&& 0xFFFFFFFE0000000F#64) ||| ((va >>> 31) &&& 0x0000000180000000#64) |||
        ((va >>> 9) &&& 0x000000007FFFFFF0#64)
    | none => s.cp0.xContext
  cp0Rest : t.cp0 = { s.cp0 with
    cause := t.cp0.cause
    epc := t.cp0.epc
    status := t.cp0.status
    badVAddr := t.cp0.badVAddr
    entryHi := t.cp0.entryHi
    context := t.cp0.context
    xContext := t.cp0.xContext }
  pc : t.pc = vectorAddress s.cp0.bev s.cp0.exl (rowOf e).refill
  flow : t.branchPending = false ∧ t.inDelaySlot = false ∧ t.branchTarget = s.branchTarget
  regs : SameRegs s t
  hiLo : SameHiLo s t
  tlbLl : SameTlbLl s t
  mem : SameMemory s t
  bus : SameBus s t

/-- The instruction, or the step before its tick, takes exception `e` from state `s`. -/
def Enters (r : Result) (e : Exn) (s : State) : Prop := ∃ t, r = .next t ∧ Entered e s t

-- The step (10 R80, R86; 60 R480).

/-- `t` is `s` after `Tick()` (60 R480). -/
def Ticked (s t : State) : Prop :=
  t = { s with cp0 := { s.cp0 with
    count := t.cp0.count
    cause := t.cp0.cause } } ∧
    t.cp0.count.toNat = (s.cp0.count.toNat + s.countIncrement.toNat) % 2 ^ 32 ∧
    (∀ i, i ≠ 15 → bitAt t.cp0.cause i = bitAt s.cp0.cause i) ∧
    (bitAt t.cp0.cause 15 = true ↔ bitAt s.cp0.cause 15 = true ∨
      (1 ≤ ((s.cp0.compare.toNat : Int) - s.cp0.count.toNat) % 2 ^ 32 ∧
        ((s.cp0.compare.toNat : Int) - s.cp0.count.toNat) % 2 ^ 32 ≤ s.countIncrement.toNat))

/-- The step from `s` takes exception `e` in the state `u` that the fetch left, then ticks. -/
def StepEnters (s : State) (e : Exn) (u : State) : Prop :=
  ∃ t t', step s = .next t' ∧ Entered e u t ∧ Ticked t t'

/-- The condition for an interrupt (60 R475). -/
def InterruptPending (s : State) : Prop :=
  bitAt s.cp0.status 0 = true ∧ bitAt s.cp0.status 1 = false ∧ bitAt s.cp0.status 2 = false ∧
    ∃ i, i < 8 ∧ bitAt s.cp0.cause (8 + i) = true ∧ bitAt s.cp0.status (8 + i) = true

/-- The fetch at pc reads plain memory at `pa`. -/
def FetchesFrom (s : State) (pa : PAddr) : Prop :=
  translateAligned s.pc .word .fetch s = .ok pa ∧ regionKindAt s.bus pa.toNat = .memory

-- Instruction classes.

/-- The 64-bit operations (30 R162). -/
def is64 : Instr → Bool
  | .dadd _ _ _ | .daddu _ _ _ | .dsub _ _ _ | .dsubu _ _ _ | .daddi _ _ _ | .daddiu _ _ _ => true
  | .dsll _ _ _ | .dsrl _ _ _ | .dsra _ _ _ | .dsll32 _ _ _ | .dsrl32 _ _ _ | .dsra32 _ _ _ => true
  | .dsllv _ _ _ | .dsrlv _ _ _ | .dsrav _ _ _ => true
  | .dmult _ _ | .dmultu _ _ | .ddiv _ _ | .ddivu _ _ => true
  | .ld _ _ _ | .sd _ _ _ | .ldl _ _ _ | .ldr _ _ _ | .sdl _ _ _ | .sdr _ _ _ | .lwu _ _ _ => true
  | .lld _ _ _ | .scd _ _ _ | .dmfc0 _ _ | .dmtc0 _ _ => true
  | _ => false

/-- The instructions that need CP0 to be usable (60 R471). -/
def needsCp0 : Instr → Bool
  | .mfc0 _ _ | .mtc0 _ _ | .dmfc0 _ _ | .dmtc0 _ _ | .tlbr | .tlbwi | .tlbwr | .tlbp | .eret => true
  | .cache _ _ _ => true
  | _ => false

/-- The mode lets the instruction run (60 R471, R472). -/
def Allowed (i : Instr) (s : State) : Prop :=
  (is64 i = true → s.cp0.kernelMode = true) ∧ (needsCp0 i = true → s.cp0.kernelMode = true ∨ s.cp0.cu0 = true)

/-- The words that name no instruction (30 R163). -/
def reservedWord (w : Word) : Bool :=
  [0x1C#6, 0x1D#6, 0x1E#6, 0x1F#6, 0x33#6, 0x3B#6].contains (opOf w) ||
  (opOf w == 0x00#6 && [0x01#6, 0x05#6, 0x0A#6, 0x0B#6, 0x0E#6, 0x15#6, 0x28#6, 0x29#6, 0x35#6, 0x37#6,
    0x39#6, 0x3D#6].contains (functOf w)) ||
  (opOf w == 0x01#6 && [0x04#5, 0x05#5, 0x06#5, 0x07#5, 0x0D#5, 0x0F#5, 0x14#5, 0x15#5, 0x16#5, 0x17#5,
    0x18#5, 0x19#5, 0x1A#5, 0x1B#5, 0x1C#5, 0x1D#5, 0x1E#5, 0x1F#5].contains (rtOf w)) ||
  (opOf w == 0x10#6 && [0x02#5, 0x03#5, 0x06#5, 0x07#5, 0x08#5, 0x09#5, 0x0A#5, 0x0B#5, 0x0C#5, 0x0D#5,
    0x0E#5, 0x0F#5].contains (rsOf w)) ||
  (opOf w == 0x10#6 && decide (16 ≤ (rsOf w).toNat) &&
    !([0x01#6, 0x02#6, 0x06#6, 0x08#6, 0x18#6].contains (functOf w)))

/-- The aligned loads that are not linked: the instruction, its width, and the register value it makes of
the number it reads (43 R312 to R318). -/
def alignedLoads (base rt : RegNum) (offset : BitVec 16) : List (Instr × Width × (Nat → DWord)) :=
  [(.lb base rt offset, .byte, fun n => word64 (Int.bmod n (2 ^ 8))),
   (.lbu base rt offset, .byte, fun n => word64 n),
   (.lh base rt offset, .half, fun n => word64 (Int.bmod n (2 ^ 16))),
   (.lhu base rt offset, .half, fun n => word64 n),
   (.lw base rt offset, .word, fun n => word64 (Int.bmod n (2 ^ 32))),
   (.lwu base rt offset, .word, fun n => word64 n),
   (.ld base rt offset, .dword, fun n => word64 n)]

/-- The linked loads (43 R336, R337). -/
def linkedLoads (base rt : RegNum) (offset : BitVec 16) : List (Instr × Width × (Nat → DWord)) :=
  [(.ll base rt offset, .word, fun n => word64 (Int.bmod n (2 ^ 32))),
   (.lld base rt offset, .dword, fun n => word64 n)]

/-- The aligned stores that are not conditional (43 R323 to R326). -/
def alignedStores (base rt : RegNum) (offset : BitVec 16) : List (Instr × Width) :=
  [(.sb base rt offset, .byte), (.sh base rt offset, .half), (.sw base rt offset, .word),
   (.sd base rt offset, .dword)]

/-- The conditional stores (43 R338, R339). -/
def conditionalStores (base rt : RegNum) (offset : BitVec 16) : List (Instr × Width) :=
  [(.sc base rt offset, .word), (.scd base rt offset, .dword)]

/-- The unaligned loads (43 R319 to R322). -/
def unalignedLoads (base rt : RegNum) (offset : BitVec 16) : List (Instr × Width) :=
  [(.lwl base rt offset, .word), (.lwr base rt offset, .word), (.ldl base rt offset, .dword),
   (.ldr base rt offset, .dword)]

/-- The unaligned stores (43 R327 to R330). -/
def unalignedStores (base rt : RegNum) (offset : BitVec 16) : List (Instr × Width) :=
  [(.swl base rt offset, .word), (.swr base rt offset, .word), (.sdl base rt offset, .dword),
   (.sdr base rt offset, .dword)]

-- Sound states.

/-- The CP0 registers hold no bit that the spec says reads 0, Config.BE is 1, Cause.ExcCode is a code of
the table, and PageMask is legal (10 R39 to R68; 60 R451). -/
structure Cp0Inv (c : Cp0) : Prop where
  index : c.index &&& 0x7FFFFFC0#32 = 0#32
  entryLo0 : c.entryLo0 &&& 0xFFFFFFFFC0000000#64 = 0#64
  entryLo1 : c.entryLo1 &&& 0xFFFFFFFFC0000000#64 = 0#64
  context : c.context &&& 0x000000000000000F#64 = 0#64
  pageMask : c.pageMask ∈ [0x00000000#32, 0x00006000#32, 0x0001E000#32, 0x0007E000#32, 0x001FE000#32,
    0x007FE000#32, 0x01FFE000#32]
  entryHi : c.entryHi &&& 0x3FFFFF0000001F00#64 = 0#64
  status : c.status &&& 0xEFB800E0#32 = 0#32
  cause : c.cause &&& 0x4FFF0083#32 = 0#32
  code : (getField c.cause 2 5).toNat ≤ 13
  config : c.config &&& 0xFFFFFFF8#32 = 0x00008000#32
  xContext : c.xContext &&& 0x000000000000000F#64 = 0#64

/-- A state that the rules allow: what holds after reset and after every step (10 R20, R39 to R70, R87;
00 R5; the form of memory is the model's own). -/
structure Inv (s : State) : Prop where
  zero : s.regs[0] = 0#64
  tlbSize : 1 ≤ s.tlbSize ∧ s.tlbSize ≤ 64
  countIncrement : s.countIncrement ≠ 0#32
  random : s.cp0.wired.toNat ≤ s.cp0.random.toNat ∧ s.cp0.random.toNat < s.tlbSize
  slot : s.branchPending = true → s.inDelaySlot = true
  mem : Memory.wf s.mem = true
  masks : ∀ e ∈ s.tlb, e.mask ∈ [0x000#12, 0x003#12, 0x00F#12, 0x03F#12, 0x0FF#12, 0x3FF#12, 0xFFF#12]
  cp0 : Cp0Inv s.cp0

end Sys2Proof.Safety
end

