-- ==== Sys2Proof/Certificates/Slice0/Obligations.lean ====
section
/-! DEFINITION. The statements for the provers, in the order of OBLIGATIONS.json. Each says what the machine
does, from the numbered rules of the spec; a docstring names the rules and, where a clause is the model's own
choice, the log entry. -/

open Sys2Proof Sys2Proof.Machine Sys2Proof.Safety

-- Encoding.

/-- 30 R170: the sample words decode to their instructions, and the instructions encode to the words. -/
def Obligations.SampleWordsDecode : Prop :=
  ∀ p ∈ ([(0x3C081234#32, .lui 8 0x1234), (0x21085678#32, .addi 8 8 0x5678), (0x00851021#32, .addu 4 5 2),
      (0x8FA90004#32, .lw 29 9 4), (0x0C000400#32, .jal 0x400), (0x03E00008#32, .jr 31),
      (0x1000FFFF#32, .beq 0 0 0xFFFF), (0x0000000C#32, .syscall 0), (0x401A6800#32, .mfc0 26 13),
      (0x40886000#32, .mtc0 8 12), (0x42000018#32, .eret), (0x42000002#32, .tlbwi),
      (0x0009403C#32, .dsll32 9 8 0)] : List (Word × Instr)),
    decodeWord p.1 = .ok p.2 ∧ encode p.2 = p.1

/-- 30 R150 to R157: decoding the bytes of an encoded instruction gives it back with every operand, whatever
follows. -/
def Obligations.DecodeEncodeAgree : Prop :=
  ∀ (i : Instr) (rest : List Byte), i.wellFormed = true →
    decodeBytes (bytesOfWord (encode i) ++ rest) = .ok (i, rest)

/-- 30 R159, R160: a word decodes to an instruction exactly where it has the match of a row of the opcode
table under the row's mask, and to an instruction of that row. -/
def Obligations.DecodeFollowsTable : Prop :=
  (∀ (w : Word) (i : Instr), decodeWord w = .ok i → w &&& i.tableMask = i.tableMatch) ∧
    ∀ (w : Word) (i : Instr), w &&& i.tableMask = i.tableMatch →
      ∃ j, decodeWord w = .ok j ∧ j.tableMask = i.tableMask ∧ j.tableMatch = i.tableMatch

/-- 30 R163: Reserved Instruction is raised for exactly the listed words (those of COP0 where CP0 is usable),
and for a 64-bit operation outside kernel mode. -/
def Obligations.ReservedInstructionRaised : Prop :=
  (∀ w : Word, (∃ e, decodeWord w = .error e) ↔ reservedWord w = true) ∧
    (∀ (s : State) (pa : PAddr) (w : Word), s.cp0.interruptReady = false → FetchesFrom s pa →
      bigEndian s.mem pa.toNat 4 = w.toNat → reservedWord w = true →
      (opOf w = 0x10#6 → s.cp0.usable = true) → StepEnters s .reservedInstruction s) ∧
    ∀ (i : Instr) (s : State), is64 i = true → s.cp0.kernelMode = false →
      (needsCp0 i = true → s.cp0.usable = true) → Enters (exec i s) .reservedInstruction s

-- The step.

/-- 10 R80 to R83: where no interrupt is ready and the four bytes at pc decode to a well-formed instruction,
the step is the instruction's meaning in this state, followed by the tick. -/
def Obligations.StepRunsDecodedInstruction : Prop :=
  ∀ (s : State) (pa : PAddr) (i : Instr) (rest : List Byte), s.cp0.interruptReady = false →
    FetchesFrom s pa →
    decodeBytes [Memory.read s.mem pa.toNat, Memory.read s.mem (pa.toNat + 1),
      Memory.read s.mem (pa.toNat + 2), Memory.read s.mem (pa.toNat + 3)] = .ok (i, rest) →
    i.wellFormed = true → step s = thenTick (exec i s)

/-- 60 R475: with IE = 1, EXL = 0, ERL = 0 and a pending line that IM lets through, the step takes the
Interrupt exception and executes nothing; without, the interrupt check does not fire. -/
def Obligations.InterruptTakenFirst : Prop :=
  (∀ s : State, InterruptPending s → StepEnters s .interrupt s) ∧
    ∀ s : State, ¬InterruptPending s → s.cp0.interruptReady = false

/-- 20 R122: the fetch checks alignment, translates, and asks the bus; it never raises TLB Modified, of any
address; and where a load can read, a fetch can fetch, from the same physical address. -/
def Obligations.FetchRule : Prop :=
  (∀ (va : DWord) (s : State), va.toNat % 4 ≠ 0 → fetch va s = .raised (.addressLoad va) s) ∧
    (∀ (va : DWord) (s : State) (e : Exn), va.toNat % 4 = 0 → translate va .fetch s = .error e →
      fetch va s = .raised e s) ∧
    (∀ (va : DWord) (s : State) (pa : PAddr), va.toNat % 4 = 0 → translate va .fetch s = .ok pa →
      fetch va s = match busRead pa .word (.fetch pa) s with
        | (.ok v, s') => .ok (BitVec.ofNat 64 (v.toNat % 2 ^ 32)) s'
        | (.unmapped, s') => .raised (.busFetch va) s'
        | (.deviceMisaligned, s') => .raised (.addressLoad va) s') ∧
    (∀ (va bad : DWord) (s u : State), fetch va s ≠ .raised (.tlbModified bad) u) ∧
    ∀ (va : DWord) (s : State) (pa : PAddr), translate va .load s = .ok pa → translate va .fetch s = .ok pa

/-- 10 R85, R86; 30 R165: an exception that the fetch raises is taken by the step, whatever the word. -/
def Obligations.FetchExceptionTaken : Prop :=
  ∀ (s u : State) (e : Exn), s.cp0.interruptReady = false → fetch s.pc s = .raised e u → StepEnters s e u

/-- 60 R480: the tick adds COUNT_INCREMENT to Count and sets IP7 where Compare is passed. -/
def Obligations.TickRule : Prop :=
  ∀ s : State, ∃ t, thenTick (.next s) = .next t ∧ Ticked s t

/-- 70 R516, R523: every step answers a next state. -/
def Obligations.EveryStepAnswers : Prop := ∀ s : State, ∃ t, step s = .next t

/-- 10 R88: JAL at A, then an ADDIU in its delay slot: after two steps pc is the target, the delay slot has
executed and the link register holds A + 8. -/
def Obligations.JalThenDelaySlot : Prop :=
  ∀ (s : State) (pa pa' : PAddr) (index : BitVec 26) (rs rt : RegNum) (imm : BitVec 16),
    bitAt s.cp0.status 0 = false → s.branchPending = false → FetchesFrom s pa →
    bigEndian s.mem pa.toNat 4 = (encode (.jal index)).toNat →
    translateAligned (s.pc + 4#64) .word .fetch s = .ok pa' → regionKindAt s.bus pa'.toNat = .memory →
    bigEndian s.mem pa'.toNat 4 = (encode (.addiu rs rt imm)).toNat → rt ≠ 31#5 →
    ∃ t u, step s = .next t ∧ step t = .next u ∧ t.pc = s.pc + 4#64 ∧ u.reg 31#5 = s.pc + 8#64 ∧
      u.pc.toNat = s.pc.toNat / 2 ^ 28 * 2 ^ 28 + index.toNat * 4 ∧
      (rt ≠ 0#5 → u.reg rt = word32 (low32s (if rs = 31#5 then s.pc + 8#64 else s.reg rs) + imm.toInt)) ∧
      u.branchPending = false ∧ u.inDelaySlot = false

/-- 20 R128; 70 R512: a word that SW stores where the next fetch reads is the instruction of the next step. -/
def Obligations.StoreSeenByNextFetch : Prop :=
  ∀ (s : State) (pa pa' : PAddr) (base rt : RegNum) (offset : BitVec 16) (i : Instr),
    bitAt s.cp0.status 0 = false → Memory.wf s.mem = true → s.branchPending = false → FetchesFrom s pa →
    bigEndian s.mem pa.toNat 4 = (encode (.sw base rt offset)).toNat →
    translateAligned (s.pc + 4#64) .word .fetch s = .ok pa' → regionKindAt s.bus pa'.toNat = .memory →
    translateAligned (effAddr s base offset) .word .store s = .ok pa' →
    low32u (s.reg rt) = (encode i).toNat →
    ∃ t, step s = .next t ∧ t.pc = s.pc + 4#64 ∧ step t = thenTick (exec i t)

-- Add, subtract, compare, logic and shifts.

/-- 40 R202, R203, R205, R207, R209, R211, R213: a signed add or subtract whose exact result fits writes it;
one that overflows raises Overflow and writes nothing, even where the destination is x[0]. -/
def Obligations.SignedAddOverflow : Prop :=
  ∀ (s : State) (rs rt rd : RegNum) (imm : BitVec 16),
    (let r := low32s (s.reg rs) + low32s (s.reg rt);
      (fits 32 r → WritesReg (exec (.add rs rt rd) s) s rd (word64 r)) ∧
      (¬fits 32 r → Enters (exec (.add rs rt rd) s) .overflow s)) ∧
    (let r := low32s (s.reg rs) - low32s (s.reg rt);
      (fits 32 r → WritesReg (exec (.sub rs rt rd) s) s rd (word64 r)) ∧
      (¬fits 32 r → Enters (exec (.sub rs rt rd) s) .overflow s)) ∧
    (let r := low32s (s.reg rs) + imm.toInt;
      (fits 32 r → WritesReg (exec (.addi rs rt imm) s) s rt (word64 r)) ∧
      (¬fits 32 r → Enters (exec (.addi rs rt imm) s) .overflow s)) ∧
    (s.cp0.kernelMode = true →
      (let r := (s.reg rs).toInt + (s.reg rt).toInt;
        (fits 64 r → WritesReg (exec (.dadd rs rt rd) s) s rd (word64 r)) ∧
        (¬fits 64 r → Enters (exec (.dadd rs rt rd) s) .overflow s)) ∧
      (let r := (s.reg rs).toInt - (s.reg rt).toInt;
        (fits 64 r → WritesReg (exec (.dsub rs rt rd) s) s rd (word64 r)) ∧
        (¬fits 64 r → Enters (exec (.dsub rs rt rd) s) .overflow s)) ∧
      (let r := (s.reg rs).toInt + imm.toInt;
        (fits 64 r → WritesReg (exec (.daddi rs rt imm) s) s rt (word64 r)) ∧
        (¬fits 64 r → Enters (exec (.daddi rs rt imm) s) .overflow s)))

/-- 40 R201, R204, R206, R208, R210, R212, R214: the adds and subtracts that wrap. -/
def Obligations.WrappingAdd : Prop :=
  ∀ (s : State) (rs rt rd : RegNum) (imm : BitVec 16),
    WritesReg (exec (.addu rs rt rd) s) s rd (word32 (low32s (s.reg rs) + low32s (s.reg rt))) ∧
    WritesReg (exec (.subu rs rt rd) s) s rd (word32 (low32s (s.reg rs) - low32s (s.reg rt))) ∧
    WritesReg (exec (.addiu rs rt imm) s) s rt (word32 (low32s (s.reg rs) + imm.toInt)) ∧
    (s.cp0.kernelMode = true →
      WritesReg (exec (.daddu rs rt rd) s) s rd (word64 ((s.reg rs).toInt + (s.reg rt).toInt)) ∧
      WritesReg (exec (.dsubu rs rt rd) s) s rd (word64 ((s.reg rs).toInt - (s.reg rt).toInt)) ∧
      WritesReg (exec (.daddiu rs rt imm) s) s rt (word64 ((s.reg rs).toInt + imm.toInt)))

/-- 40 R215 to R218: the 64-bit comparisons, in every mode. -/
def Obligations.SetOnLess : Prop :=
  ∀ (s : State) (rs rt rd : RegNum) (imm : BitVec 16),
    WritesReg (exec (.slt rs rt rd) s) s rd (oneIf ((s.reg rs).toInt < (s.reg rt).toInt)) ∧
    WritesReg (exec (.sltu rs rt rd) s) s rd (oneIf ((s.reg rs).toNat < (s.reg rt).toNat)) ∧
    WritesReg (exec (.slti rs rt imm) s) s rt (oneIf ((s.reg rs).toInt < imm.toInt)) ∧
    WritesReg (exec (.sltiu rs rt imm) s) s rt
      (oneIf (((s.reg rs).toNat : Int) < imm.toInt % 2 ^ 64))

/-- 40 R219 to R226: the logical operations on all 64 bits, zero-extended immediates, and LUI. -/
def Obligations.LogicalOperations : Prop :=
  ∀ (s : State) (rs rt rd : RegNum) (imm : BitVec 16),
    WritesReg (exec (.and rs rt rd) s) s rd (s.reg rs &&& s.reg rt) ∧
    WritesReg (exec (.or rs rt rd) s) s rd (s.reg rs ||| s.reg rt) ∧
    WritesReg (exec (.xor rs rt rd) s) s rd (s.reg rs ^^^ s.reg rt) ∧
    WritesReg (exec (.nor rs rt rd) s) s rd (~~~(s.reg rs ||| s.reg rt)) ∧
    WritesReg (exec (.andi rs rt imm) s) s rt (s.reg rs &&& BitVec.ofNat 64 imm.toNat) ∧
    WritesReg (exec (.ori rs rt imm) s) s rt (s.reg rs ||| BitVec.ofNat 64 imm.toNat) ∧
    WritesReg (exec (.xori rs rt imm) s) s rt (s.reg rs ^^^ BitVec.ofNat 64 imm.toNat) ∧
    WritesReg (exec (.lui rt imm) s) s rt (word32 (imm.toNat * 2 ^ 16))

/-- 40 R227 to R232: the 32-bit shifts, by powers of two of the low word. -/
def Obligations.WordShifts : Prop :=
  ∀ (s : State) (rs rt rd : RegNum) (sa : BitVec 5),
    WritesReg (exec (.sll rt rd sa) s) s rd (word32 (low32u (s.reg rt) * 2 ^ sa.toNat)) ∧
    WritesReg (exec (.srl rt rd sa) s) s rd (word32 (low32u (s.reg rt) / 2 ^ sa.toNat : Nat)) ∧
    WritesReg (exec (.sra rt rd sa) s) s rd (word32 (low32s (s.reg rt) / 2 ^ sa.toNat)) ∧
    (let n := (s.reg rs).toNat % 32;
      WritesReg (exec (.sllv rs rt rd) s) s rd (word32 (low32u (s.reg rt) * 2 ^ n)) ∧
      WritesReg (exec (.srlv rs rt rd) s) s rd (word32 (low32u (s.reg rt) / 2 ^ n : Nat)) ∧
      WritesReg (exec (.srav rs rt rd) s) s rd (word32 (low32s (s.reg rt) / 2 ^ n)))

/-- 40 R233 to R241: the 64-bit shifts in kernel mode. -/
def Obligations.DoublewordShifts : Prop :=
  ∀ (s : State) (rs rt rd : RegNum) (sa : BitVec 5), s.cp0.kernelMode = true →
    (let n := sa.toNat;
      WritesReg (exec (.dsll rt rd sa) s) s rd (word64 ((s.reg rt).toNat * 2 ^ n)) ∧
      WritesReg (exec (.dsrl rt rd sa) s) s rd (word64 ((s.reg rt).toNat / 2 ^ n : Nat)) ∧
      WritesReg (exec (.dsra rt rd sa) s) s rd (word64 ((s.reg rt).toInt / 2 ^ n))) ∧
    (let n := sa.toNat + 32;
      WritesReg (exec (.dsll32 rt rd sa) s) s rd (word64 ((s.reg rt).toNat * 2 ^ n)) ∧
      WritesReg (exec (.dsrl32 rt rd sa) s) s rd (word64 ((s.reg rt).toNat / 2 ^ n : Nat)) ∧
      WritesReg (exec (.dsra32 rt rd sa) s) s rd (word64 ((s.reg rt).toInt / 2 ^ n))) ∧
    (let n := (s.reg rs).toNat % 64;
      WritesReg (exec (.dsllv rs rt rd) s) s rd (word64 ((s.reg rt).toNat * 2 ^ n)) ∧
      WritesReg (exec (.dsrlv rs rt rd) s) s rd (word64 ((s.reg rt).toNat / 2 ^ n : Nat)) ∧
      WritesReg (exec (.dsrav rs rt rd) s) s rd (word64 ((s.reg rt).toInt / 2 ^ n)))

-- HI, LO, multiply and divide.

/-- 41 R262 to R265: the moves from and to HI and LO. -/
def Obligations.HiLoMoves : Prop :=
  ∀ (s : State) (rs rd : RegNum),
    WritesReg (exec (.mfhi rd) s) s rd s.hi ∧ WritesReg (exec (.mflo rd) s) s rd s.lo ∧
    WritesHiLo (exec (.mthi rs) s) s (s.reg rs) s.lo ∧ WritesHiLo (exec (.mtlo rs) s) s s.hi (s.reg rs)

/-- 41 R266, R267, R270, R271: the exact product, its upper half in HI and its lower half in LO. -/
def Obligations.Multiplies : Prop :=
  ∀ (s : State) (rs rt : RegNum),
    (let p := low32s (s.reg rs) * low32s (s.reg rt);
      WritesHiLo (exec (.mult rs rt) s) s (word32 (p / 2 ^ 32)) (word32 p)) ∧
    (let p : Int := low32u (s.reg rs) * low32u (s.reg rt);
      WritesHiLo (exec (.multu rs rt) s) s (word32 (p / 2 ^ 32)) (word32 p)) ∧
    (s.cp0.kernelMode = true →
      (let p := (s.reg rs).toInt * (s.reg rt).toInt;
        WritesHiLo (exec (.dmult rs rt) s) s (word64 (p / 2 ^ 64)) (word64 p)) ∧
      (let p : Int := (s.reg rs).toNat * (s.reg rt).toNat;
        WritesHiLo (exec (.dmultu rs rt) s) s (word64 (p / 2 ^ 64)) (word64 p)))

/-- 41 R261, R268, R269, R272, R273: quotient and remainder; the overflow case, where the quotient wraps to
the dividend's pattern and the remainder is 0; and the parameter DIV0 for a zero divisor. -/
def Obligations.DivisionResults : Prop :=
  ∀ (s : State) (rs rt : RegNum),
    (let n := low32s (s.reg rs); let d := low32s (s.reg rt);
      (d ≠ 0 → ∃ q r, IsDivision n d q r ∧ WritesHiLo (exec (.div rs rt) s) s (word32 r) (word32 q)) ∧
      (n = -2 ^ 31 ∧ d = -1 → WritesHiLo (exec (.div rs rt) s) s 0#64 0xFFFFFFFF80000000#64) ∧
      (d = 0 → WritesHiLo (exec (.div rs rt) s) s (Config.div0 .div (s.reg rs)).1
        (Config.div0 .div (s.reg rs)).2)) ∧
    (let n := low32u (s.reg rs); let d := low32u (s.reg rt);
      (d ≠ 0 → WritesHiLo (exec (.divu rs rt) s) s (word32 (n % d : Nat)) (word32 (n / d : Nat))) ∧
      (d = 0 → WritesHiLo (exec (.divu rs rt) s) s (Config.div0 .divu (s.reg rs)).1
        (Config.div0 .divu (s.reg rs)).2)) ∧
    (s.cp0.kernelMode = true →
      (let n := (s.reg rs).toInt; let d := (s.reg rt).toInt;
        (d ≠ 0 → ∃ q r, IsDivision n d q r ∧ WritesHiLo (exec (.ddiv rs rt) s) s (word64 r) (word64 q)) ∧
        (n = -2 ^ 63 ∧ d = -1 → WritesHiLo (exec (.ddiv rs rt) s) s 0#64 0x8000000000000000#64) ∧
        (d = 0 → WritesHiLo (exec (.ddiv rs rt) s) s (Config.div0 .ddiv (s.reg rs)).1
          (Config.div0 .ddiv (s.reg rs)).2)) ∧
      (let n := (s.reg rs).toNat; let d := (s.reg rt).toNat;
        (d ≠ 0 → WritesHiLo (exec (.ddivu rs rt) s) s (word64 (n % d : Nat)) (word64 (n / d : Nat))) ∧
        (d = 0 → WritesHiLo (exec (.ddivu rs rt) s) s (Config.div0 .ddivu (s.reg rs)).1
          (Config.div0 .ddivu (s.reg rs)).2)))

-- Jumps and branches.

/-- 42 R281 to R284, R302, R304; 10 R22: the jumps. JALR reads its target before the link is written and
links x[31] where rd is 0; in a delay slot the earlier target is applied first. -/
def Obligations.JumpInstructions : Prop :=
  ∀ (s : State) (rs rd : RegNum) (index : BitVec 26),
    (let target := BitVec.ofNat 64 (s.pc.toNat / 2 ^ 28 * 2 ^ 28 + index.toNat * 4);
      Jumps (exec (.j index) s) s false true target ∧
      JumpsLinking (exec (.jal index) s) s 31#5 false true target) ∧
    Jumps (exec (.jr rs) s) s false true (s.reg rs) ∧
    JumpsLinking (exec (.jalr rs rd) s) s (if rd = 0#5 then 31#5 else rd) false true (s.reg rs)

/-- 42 R285 to R293, R302, R304: the conditional branches and their linking forms, which link whether or not
they are taken and test the register before the link is written. -/
def Obligations.ConditionalBranches : Prop :=
  ∀ (s : State) (rs rt : RegNum) (offset : BitVec 16),
    let target := s.pc + 4#64 + word64 (offset.toInt * 4)
    Jumps (exec (.beq rs rt offset) s) s false (decide (s.reg rs = s.reg rt)) target ∧
    Jumps (exec (.bne rs rt offset) s) s false (decide (s.reg rs ≠ s.reg rt)) target ∧
    Jumps (exec (.blez rs offset) s) s false (decide ((s.reg rs).toInt ≤ 0)) target ∧
    Jumps (exec (.bgtz rs offset) s) s false (decide (0 < (s.reg rs).toInt)) target ∧
    Jumps (exec (.bltz rs offset) s) s false (decide ((s.reg rs).toInt < 0)) target ∧
    Jumps (exec (.bgez rs offset) s) s false (decide (0 ≤ (s.reg rs).toInt)) target ∧
    JumpsLinking (exec (.bltzal rs offset) s) s 31#5 false (decide ((s.reg rs).toInt < 0)) target ∧
    JumpsLinking (exec (.bgezal rs offset) s) s 31#5 false (decide (0 ≤ (s.reg rs).toInt)) target

/-- 42 R280, R285, R294 to R302, R304: the likely branches; one that is not taken annuls its delay slot, so
that the next step executes pc + 8, unless it is itself in a delay slot of a taken branch. -/
def Obligations.LikelyBranches : Prop :=
  ∀ (s : State) (rs rt : RegNum) (offset : BitVec 16),
    let target := s.pc + 4#64 + word64 (offset.toInt * 4)
    Jumps (exec (.beql rs rt offset) s) s true (decide (s.reg rs = s.reg rt)) target ∧
    Jumps (exec (.bnel rs rt offset) s) s true (decide (s.reg rs ≠ s.reg rt)) target ∧
    Jumps (exec (.blezl rs offset) s) s true (decide ((s.reg rs).toInt ≤ 0)) target ∧
    Jumps (exec (.bgtzl rs offset) s) s true (decide (0 < (s.reg rs).toInt)) target ∧
    Jumps (exec (.bltzl rs offset) s) s true (decide ((s.reg rs).toInt < 0)) target ∧
    Jumps (exec (.bgezl rs offset) s) s true (decide (0 ≤ (s.reg rs).toInt)) target ∧
    JumpsLinking (exec (.bltzall rs offset) s) s 31#5 true (decide ((s.reg rs).toInt < 0)) target ∧
    JumpsLinking (exec (.bgezall rs offset) s) s 31#5 true (decide (0 ≤ (s.reg rs).toInt)) target

-- Loads and stores.

/-- 43 R312 to R318; 20 R101, R120: an aligned load that passes its checks writes the extension of the
big-endian value in memory. -/
def Obligations.AlignedLoads : Prop :=
  ∀ (s : State) (base rt : RegNum) (offset : BitVec 16) (pa : PAddr),
    ∀ p ∈ alignedLoads base rt offset, Allowed p.1 s →
      translateAligned (effAddr s base offset) p.2.1 .load s = .ok pa →
      regionKindAt s.bus pa.toNat = .memory →
      WritesReg (exec p.1 s) s rt (p.2.2 (bigEndian s.mem pa.toNat (widthBytes p.2.1)))

/-- 43 R311, R319 to R322: the unaligned loads merge bytes b.. or ..b of the unit with the register. -/
def Obligations.UnalignedLoads : Prop :=
  ∀ (s : State) (base rt : RegNum) (offset : BitVec 16) (pa : PAddr),
    translate (effAddr s base offset) .load s = .ok pa →
    (let b := (effAddr s base offset).toNat % 4;
      regionKindAt s.bus (pa.toNat - b) = .memory →
      WritesReg (exec (.lwl base rt offset) s) s rt
        (word32 (bigEndian s.mem pa.toNat (4 - b) * 256 ^ b + low32u (s.reg rt) % 256 ^ b : Nat)) ∧
      WritesReg (exec (.lwr base rt offset) s) s rt
        (word32 (low32u (s.reg rt) / 256 ^ (b + 1) * 256 ^ (b + 1) +
          bigEndian s.mem (pa.toNat - b) (b + 1) : Nat))) ∧
    (let b := (effAddr s base offset).toNat % 8;
      s.cp0.kernelMode = true → regionKindAt s.bus (pa.toNat - b) = .memory →
      WritesReg (exec (.ldl base rt offset) s) s rt
        (word64 (bigEndian s.mem pa.toNat (8 - b) * 256 ^ b + (s.reg rt).toNat % 256 ^ b : Nat)) ∧
      WritesReg (exec (.ldr base rt offset) s) s rt
        (word64 ((s.reg rt).toNat / 256 ^ (b + 1) * 256 ^ (b + 1) +
          bigEndian s.mem (pa.toNat - b) (b + 1) : Nat)))

/-- 43 R323 to R326; 20 R101, R121: an aligned store that passes its checks writes the low bytes of the
register, most significant first, and no other byte. -/
def Obligations.AlignedStores : Prop :=
  ∀ (s : State) (base rt : RegNum) (offset : BitVec 16) (pa : PAddr), Memory.wf s.mem = true →
    ∀ p ∈ alignedStores base rt offset, Allowed p.1 s →
      translateAligned (effAddr s base offset) p.2 .store s = .ok pa →
      regionKindAt s.bus pa.toNat = .memory →
      Stores (exec p.1 s) s pa.toNat (widthBytes p.2) (s.reg rt).toNat

/-- 43 R311, R327 to R331: the unaligned stores write the upper bytes of the register to bytes b.. of the
unit, or its lower bytes to bytes ..b, and no other byte. -/
def Obligations.UnalignedStores : Prop :=
  ∀ (s : State) (base rt : RegNum) (offset : BitVec 16) (pa : PAddr), Memory.wf s.mem = true →
    translate (effAddr s base offset) .store s = .ok pa →
    (let b := (effAddr s base offset).toNat % 4;
      (∀ j, j < 4 → regionKindAt s.bus (pa.toNat - b + j) = .memory) →
      Stores (exec (.swl base rt offset) s) s pa.toNat (4 - b) (low32u (s.reg rt) / 256 ^ b) ∧
      Stores (exec (.swr base rt offset) s) s (pa.toNat - b) (b + 1) (low32u (s.reg rt))) ∧
    (let b := (effAddr s base offset).toNat % 8;
      s.cp0.kernelMode = true → (∀ j, j < 8 → regionKindAt s.bus (pa.toNat - b + j) = .memory) →
      Stores (exec (.sdl base rt offset) s) s pa.toNat (8 - b) ((s.reg rt).toNat / 256 ^ b) ∧
      Stores (exec (.sdr base rt offset) s) s (pa.toNat - b) (b + 1) (s.reg rt).toNat)

/-- 43 R336, R337: LL and LLD load, set LLbit and put PA[35:4] into LLAddr. -/
def Obligations.LoadLinked : Prop :=
  ∀ (s : State) (base rt : RegNum) (offset : BitVec 16) (pa : PAddr),
    ∀ p ∈ linkedLoads base rt offset, Allowed p.1 s →
      translateAligned (effAddr s base offset) p.2.1 .load s = .ok pa →
      regionKindAt s.bus pa.toNat = .memory →
      ∃ t, exec p.1 s = .next t ∧
        RegWritten s t rt (p.2.2 (bigEndian s.mem pa.toNat (widthBytes p.2.1))) ∧ SameHiLo s t ∧
        t.cp0 = { s.cp0 with llAddr := BitVec.ofNat 32 (pa.toNat / 16) } ∧ t.llbit = true ∧
        t.tlb = s.tlb ∧ SameMemory s t ∧ SameBus s t ∧ Advances s t

/-- 43 R338 to R340: SC and SCD store and set rt to 1 where LLbit is 1, and store nothing and set rt to 0
where it is 0; LLbit is 0 after both. -/
def Obligations.StoreConditional : Prop :=
  ∀ (s : State) (base rt : RegNum) (offset : BitVec 16) (pa : PAddr), Memory.wf s.mem = true →
    ∀ p ∈ conditionalStores base rt offset, Allowed p.1 s →
      translateAligned (effAddr s base offset) p.2 .store s = .ok pa →
      (s.llbit = true → regionKindAt s.bus pa.toNat = .memory →
        ∃ t, exec p.1 s = .next t ∧ RegWritten s t rt 1#64 ∧
          BytesStored s t pa.toNat (widthBytes p.2) (s.reg rt).toNat ∧ t.llbit = false ∧ t.tlb = s.tlb ∧
          SameHiLo s t ∧ t.cp0 = s.cp0 ∧ SameBus s t ∧ Advances s t) ∧
      (s.llbit = false →
        ∃ t, exec p.1 s = .next t ∧ RegWritten s t rt 0#64 ∧ SameMemory s t ∧ t.llbit = false ∧
          t.tlb = s.tlb ∧ SameHiLo s t ∧ t.cp0 = s.cp0 ∧ SameBus s t ∧ Advances s t)

/-- 43 R342, R343; 20 R126, R130: SYNC in every mode, and CACHE where CP0 is usable, only advance pc. -/
def Obligations.SyncAndCache : Prop :=
  ∀ (s : State) (base : RegNum) (op stype : BitVec 5) (offset : BitVec 16),
    OnlyAdvances (exec (.sync stype) s) s ∧
    (s.cp0.kernelMode = true ∨ s.cp0.cu0 = true → OnlyAdvances (exec (.cache base op offset) s) s)

/-- 20 R107: a misaligned aligned access raises AdEL or AdES with its address, before translation and the
bus, and stores nothing. -/
def Obligations.MisalignedAccessRaises : Prop :=
  ∀ (s : State) (base rt : RegNum) (offset : BitVec 16),
    let ea := effAddr s base offset
    (∀ p ∈ alignedLoads base rt offset ++ linkedLoads base rt offset, Allowed p.1 s →
      ea.toNat % widthBytes p.2.1 ≠ 0 → Enters (exec p.1 s) (.addressLoad ea) s) ∧
    ∀ p ∈ alignedStores base rt offset ++ conditionalStores base rt offset, Allowed p.1 s →
      ea.toNat % widthBytes p.2 ≠ 0 → Enters (exec p.1 s) (.addressStore ea) s

/-- 43 R310, R331, R338; 60 R458: what translation raises, the instruction raises, before any effect; a
conditional store raises it whether or not LLbit is set, and an unaligned form checks no alignment. -/
def Obligations.TranslationFaultRaises : Prop :=
  ∀ (s : State) (base rt : RegNum) (offset : BitVec 16) (e : Exn),
    let ea := effAddr s base offset
    (translate ea .load s = .error e →
      (∀ p ∈ alignedLoads base rt offset ++ linkedLoads base rt offset, Allowed p.1 s →
        ea.toNat % widthBytes p.2.1 = 0 → Enters (exec p.1 s) e s) ∧
      ∀ p ∈ unalignedLoads base rt offset, Allowed p.1 s → Enters (exec p.1 s) e s) ∧
    (translate ea .store s = .error e →
      (∀ p ∈ alignedStores base rt offset ++ conditionalStores base rt offset, Allowed p.1 s →
        ea.toNat % widthBytes p.2 = 0 → Enters (exec p.1 s) e s) ∧
      ∀ p ∈ unalignedStores base rt offset, Allowed p.1 s → Enters (exec p.1 s) e s)

/-- 43 R331: a partial unaligned store whose byte `k` meets no memory raises a bus error, and the `k` bytes
written before it stay written. -/
def Obligations.PartialStoreFault : Prop :=
  ∀ (s : State) (base rt : RegNum) (offset : BitVec 16) (pa : PAddr) (k : Nat), Memory.wf s.mem = true →
    translate (effAddr s base offset) .store s = .ok pa →
    let ea := effAddr s base offset
    let low := low32u (s.reg rt)
    let all := (s.reg rt).toNat
    let b4 := ea.toNat % 4
    let b8 := ea.toNat % 8
    ∀ p ∈ ([(.swl base rt offset, pa.toNat, 4 - b4, 4, low / 256 ^ b4),
        (.swr base rt offset, pa.toNat - b4, b4 + 1, 4, low),
        (.sdl base rt offset, pa.toNat, 8 - b8, 8, all / 256 ^ b8),
        (.sdr base rt offset, pa.toNat - b8, b8 + 1, 8, all)] : List (Instr × Nat × Nat × Nat × Nat)),
      let a := p.2.1
      let n := p.2.2.1
      n < p.2.2.2.1 → Allowed p.1 s → k < n → (∀ j, j < k → regionKindAt s.bus (a + j) = .memory) →
      regionKindAt s.bus (a + k) = .unmapped →
      ∃ u, u = { s with mem := u.mem } ∧ BytesStored s u a k (p.2.2.2.2 / 256 ^ (n - k)) ∧
        Enters (exec p.1 s) (.busData ea) u

/-- 20 R104, R106; 60 R452, R463: an access that the bus answers with Unmapped raises a bus error, one that
it answers with DeviceMisaligned an address error, with the virtual address; memory is unchanged. -/
def Obligations.BusFaultRaises : Prop :=
  ∀ (s u : State) (base rt : RegNum) (offset : BitVec 16) (pa : PAddr),
    let ea := effAddr s base offset
    (∀ p ∈ alignedLoads base rt offset ++ linkedLoads base rt offset, Allowed p.1 s →
      translateAligned ea p.2.1 .load s = .ok pa →
      (busRead pa p.2.1 (.read pa p.2.1) s = (.unmapped, u) →
        Enters (exec p.1 s) (.busData ea) u ∧ u.mem = s.mem) ∧
      (busRead pa p.2.1 (.read pa p.2.1) s = (.deviceMisaligned, u) →
        Enters (exec p.1 s) (.addressLoad ea) u ∧ u.mem = s.mem)) ∧
    (∀ p ∈ unalignedLoads base rt offset, Allowed p.1 s → translate ea .load s = .ok pa →
      (let unit := BitVec.ofNat 36 (pa.toNat / widthBytes p.2 * widthBytes p.2);
        (busRead unit p.2 (.read unit p.2) s = (.unmapped, u) →
          Enters (exec p.1 s) (.busData ea) u ∧ u.mem = s.mem) ∧
        (busRead unit p.2 (.read unit p.2) s = (.deviceMisaligned, u) →
          Enters (exec p.1 s) (.addressLoad ea) u ∧ u.mem = s.mem))) ∧
    (∀ p ∈ alignedStores base rt offset ++ (if s.llbit then conditionalStores base rt offset else []),
      Allowed p.1 s → translateAligned ea p.2 .store s = .ok pa →
      (let v := BitVec.ofNat 64 ((s.reg rt).toNat % 2 ^ (8 * widthBytes p.2));
        (busWrite pa p.2 v s = (.unmapped, u) → Enters (exec p.1 s) (.busData ea) u ∧ u.mem = s.mem) ∧
        (busWrite pa p.2 v s = (.deviceMisaligned, u) →
          Enters (exec p.1 s) (.addressStore ea) u ∧ u.mem = s.mem))) ∧
    (s.cp0.interruptReady = false → translateAligned s.pc .word .fetch s = .ok pa →
      (busRead pa .word (.fetch pa) s = (.unmapped, u) → StepEnters s (.busFetch s.pc) u ∧ u.mem = s.mem) ∧
      (busRead pa .word (.fetch pa) s = (.deviceMisaligned, u) →
        StepEnters s (.addressLoad s.pc) u ∧ u.mem = s.mem))

/-- 20 R105, R125: a load from a device makes one request and takes what the device answers, in the width of
the load; a store hands the device the low bits of the register. A size that the device does not take is
answered with DeviceMisaligned. The map of the bus and the numbering of the requests are the model's own (log
entries 5, 6). -/
def Obligations.DeviceAccess : Prop :=
  ∀ (s : State) (base rt : RegNum) (offset : BitVec 16) (pa : PAddr) (accepts : List Width),
    regionKindAt s.bus pa.toNat = .device accepts →
    let ea := effAddr s base offset
    let asked := fun (t : State) => t.busTick = s.busTick + 1 ∧ t.bus = s.bus ∧
      t.countIncrement = s.countIncrement
    (∀ p ∈ alignedLoads base rt offset, Allowed p.1 s → translateAligned ea p.2.1 .load s = .ok pa →
      (p.2.1 ∈ accepts →
        match Config.deviceAnswer s.busTick (.read pa p.2.1) with
        | .ok v => ∃ t, exec p.1 s = .next t ∧
            RegWritten s t rt (p.2.2 (v.toNat % 2 ^ (8 * widthBytes p.2.1) : Nat)) ∧ SameHiLo s t ∧
            t.cp0 = s.cp0 ∧ SameTlbLl s t ∧ SameMemory s t ∧ asked t ∧ Advances s t
        | .unmapped => Enters (exec p.1 s) (.busData ea) { s with busTick := s.busTick + 1 }
        | .deviceMisaligned => Enters (exec p.1 s) (.addressLoad ea) { s with busTick := s.busTick + 1 }) ∧
      (p.2.1 ∉ accepts → Enters (exec p.1 s) (.addressLoad ea) s)) ∧
    ∀ p ∈ alignedStores base rt offset, Allowed p.1 s → translateAligned ea p.2 .store s = .ok pa →
      (p.2 ∈ accepts →
        match Config.deviceAnswer s.busTick
          (.write pa p.2 (BitVec.ofNat 64 ((s.reg rt).toNat % 2 ^ (8 * widthBytes p.2)))) with
        | .ok _ => ∃ t, exec p.1 s = .next t ∧ SameRegs s t ∧ SameHiLo s t ∧ t.cp0 = s.cp0 ∧
            SameTlbLl s t ∧ SameMemory s t ∧ asked t ∧ Advances s t
        | .unmapped => Enters (exec p.1 s) (.busData ea) { s with busTick := s.busTick + 1 }
        | .deviceMisaligned => Enters (exec p.1 s) (.addressStore ea) { s with busTick := s.busTick + 1 }) ∧
      (p.2 ∉ accepts → Enters (exec p.1 s) (.addressStore ea) s)

-- Translation.

/-- 20 R108 to R111: a non-canonical address, and a segment that the mode may not access, raise an address
error; kseg0 and kseg1 map to the low 29 bits in kernel mode, with no TLB lookup. -/
def Obligations.SegmentRules : Prop :=
  ∀ (s : State) (va : DWord) (acc : AccessKind),
    let e := if acc = .store then Exn.addressStore va else Exn.addressLoad va
    let low : Nat := va.toNat % 2 ^ 32
    (va ≠ word32 low → translate va acc s = .error e) ∧
    (va = word32 low →
      (0x80000000 ≤ low → low < 0xC0000000 → s.cp0.kernelMode = true →
        translate va acc s = .ok (BitVec.ofNat 36 (low % 2 ^ 29))) ∧
      (0x80000000 ≤ low → low < 0xC0000000 → s.cp0.kernelMode = false → translate va acc s = .error e) ∧
      (0xE0000000 ≤ low → s.cp0.kernelMode = false → translate va acc s = .error e) ∧
      (0xC0000000 ≤ low → low < 0xE0000000 → s.cp0.userMode = true → translate va acc s = .error e) ∧
      (low < 0x80000000 ∨ (0xC0000000 ≤ low ∧ low < 0xE0000000 ∧ s.cp0.userMode = false) ∨
          (0xE0000000 ≤ low ∧ s.cp0.kernelMode = true) →
        translate va acc s = tlbLookup va acc s))

/-- 20 R114 to R117: the lookup in the TLB. Entry `n` matches under region, page-pair number without the bits
of its mask, and ASID or G; the lowest match decides; no match is a refill, V = 0 an invalid, and a store with
D = 0 a modified exception. -/
def Obligations.TlbLookupRule : Prop :=
  ∀ (s : State) (va : DWord) (acc : AccessKind),
    let hit := fun (e : TlbEntry) => e.present = true ∧ e.r = va.extractLsb' 62 2 ∧
      (∀ i, i < 27 → e.mask.getLsbD i = false → e.vpn2.getLsbD i = va.getLsbD (13 + i)) ∧
      (e.g = true ∨ e.asid = s.cp0.entryHi.extractLsb' 0 8)
    let miss := fun (refill : Bool) => if acc = .store then Exn.tlbStore va refill else Exn.tlbLoad va refill
    ((∀ e ∈ s.tlb, ¬hit e) → tlbLookup va acc s = .error (miss true)) ∧
    ∀ (n : Nat) (e : TlbEntry), s.tlb[n]? = some e → hit e →
      (∀ m e', m < n → s.tlb[m]? = some e' → ¬hit e') →
      (let h := if va.getLsbD (12 + popcount e.mask) then e.odd else e.even;
        (h.v = false → tlbLookup va acc s = .error (miss false)) ∧
        (h.v = true → acc = .store → h.d = false → tlbLookup va acc s = .error (.tlbModified va)) ∧
        (h.v = true → (acc = .store → h.d = true) → tlbLookup va acc s = .ok (e.physAddr h.pfn va)))

/-- 20 R115, R118: a physical address is the page frame number, rounded down to the page size, and the offset
in the page. -/
def Obligations.PhysicalAddress : Prop :=
  ∀ (e : TlbEntry) (pfn : BitVec 24) (va : DWord),
    let k := 12 + popcount e.mask
    (e.physAddr pfn va).toNat = pfn.toNat * 2 ^ 12 / 2 ^ k * 2 ^ k + va.toNat % 2 ^ k

-- CP0 moves, ERET and traps.

/-- 44 R366, R367; 10 R40, R68: MFC0 reads the sign extension of the low word, DMFC0 the whole register; the
slots without storage read 0. -/
def Obligations.MoveFromCp0 : Prop :=
  ∀ (s : State) (rt n : RegNum) (v : DWord),
    (let c := s.cp0;
      let wide : Word → DWord := fun w => word64 w.toInt
      let table : List (RegNum × DWord) :=
        [(0, wide c.index), (1, wide c.random), (2, c.entryLo0), (3, c.entryLo1), (4, c.context),
         (5, wide c.pageMask), (6, wide c.wired), (7, 0), (8, c.badVAddr), (9, wide c.count),
         (10, c.entryHi), (11, wide c.compare), (12, wide c.status), (13, wide c.cause), (14, c.epc),
         (15, BitVec.ofNat 64 Config.prid16.toNat), (16, wide c.config), (17, wide c.llAddr), (18, 0),
         (19, 0), (20, c.xContext), (21, 0), (22, 0), (23, 0), (24, 0), (25, 0), (26, 0), (27, 0),
         (28, wide c.tagLo), (29, wide c.tagHi), (30, c.errorEpc), (31, 0)];
      (n, v) ∈ table) →
    (s.cp0.kernelMode = true ∨ s.cp0.cu0 = true →
      WritesReg (exec (.mfc0 rt n) s) s rt (word32 (low32s v))) ∧
    (s.cp0.kernelMode = true → WritesReg (exec (.dmfc0 rt n) s) s rt v)

/-- 44 R368, R369; 10 R41 to R44, R46, R48 to R50, R52, R59, R61 to R68: what MTC0 and DMTC0 write, by the bits
that each register lets software write. -/
def Obligations.MoveToCp0 : Prop :=
  ∀ (s : State) (rt n : RegNum),
    let c := s.cp0
    let written : DWord → List (RegNum × Cp0) := fun v =>
      let w : Word := BitVec.ofNat 32 v.toNat
      [(0, { c with index := (c.index &&& 0xFFFFFFC0#32) ||| (w &&& 0x3F#32) }),
       (1, c),
       (2, { c with entryLo0 := v &&& 0x3FFFFFFF#64 }),
       (3, { c with entryLo1 := v &&& 0x3FFFFFFF#64 }),
       (4, { c with context := (c.context &&& 0x7FFFFF#64) ||| (v &&& 0xFFFFFFFFFF800000#64) }),
       (7, c), (8, c),
       (9, { c with count := w }),
       (10, { c with entryHi := v &&& 0xC00000FFFFFFE0FF#64 }),
       (12, { c with status := w &&& 0x1047FF1F#32 }),
       (13, { c with cause := (c.cause &&& 0xFFFFFCFF#32) ||| (w &&& 0x300#32) }),
       (14, { c with epc := v }),
       (15, c),
       (16, { c with config := 0x8000#32 ||| (w &&& 0x7#32) }),
       (17, { c with llAddr := w }),
       (18, c), (19, c),
       (20, { c with xContext := (c.xContext &&& 0x1FFFFFFFF#64) ||| (v &&& 0xFFFFFFFE00000000#64) }),
       (21, c), (22, c), (23, c), (24, c), (25, c), (26, c), (27, c),
       (28, { c with tagLo := w }),
       (29, { c with tagHi := w }),
       (30, { c with errorEpc := v }),
       (31, c)]
    (∀ c', (n, c') ∈ written (word32 (low32s (s.reg rt))) → c.kernelMode = true ∨ c.cu0 = true →
      WritesCp0 (exec (.mtc0 rt n) s) s c') ∧
    ∀ c', (n, c') ∈ written (s.reg rt) → c.kernelMode = true → WritesCp0 (exec (.dmtc0 rt n) s) s c'

/-- 10 R45, R47, R51: a write of PageMask keeps the largest legal mask within the value, a write of Wired is
bounded by TLB_SIZE-1 and sets Random to TLB_SIZE-1, and a write of Compare clears IP7. -/
def Obligations.PageMaskWiredCompareWrites : Prop :=
  ∀ (s : State) (rt n : RegNum),
    let c := s.cp0
    let legal : List Nat := [0x000, 0x003, 0x00F, 0x03F, 0x0FF, 0x3FF, 0xFFF]
    let inside : Nat → DWord → Prop := fun l v =>
      l ∈ legal ∧ ∀ i, i < 12 → l.testBit i = true → v.getLsbD (13 + i) = true
    let written : DWord → Cp0 → Prop := fun v c' =>
      (n = 5#5 ∧ ∃ l, inside l v ∧ (∀ l', inside l' v → l' ≤ l) ∧
        c' = { c with pageMask := BitVec.ofNat 32 (l * 2 ^ 13) }) ∨
      (n = 6#5 ∧ c' = { c with
        wired := BitVec.ofNat 32 (min (v.toNat % 64) (s.tlbSize - 1))
        random := BitVec.ofNat 32 (s.tlbSize - 1) }) ∨
      (n = 11#5 ∧ c' = { c with
        compare := BitVec.ofNat 32 v.toNat
        cause := c.cause &&& 0xFFFF7FFF#32 })
    (∀ c', written (word32 (low32s (s.reg rt))) c' → c.kernelMode = true ∨ c.cu0 = true →
      WritesCp0 (exec (.mtc0 rt n) s) s c') ∧
    ∀ c', written (s.reg rt) c' → c.kernelMode = true → WritesCp0 (exec (.dmtc0 rt n) s) s c'

/-- 44 R372: ERET clears EXL and LLbit and goes to EPC; there is no delay slot and a pending branch is
dropped. -/
def Obligations.EretReturns : Prop :=
  ∀ s : State, s.cp0.kernelMode = true ∨ s.cp0.cu0 = true →
    ∃ t, exec .eret s = .next t ∧ t.pc = s.cp0.epc ∧ t.branchPending = false ∧ t.inDelaySlot = false ∧
      t.branchTarget = s.branchTarget ∧ t.llbit = false ∧
      t.cp0 = { s.cp0 with status := s.cp0.status &&& 0xFFFFFFFD#32 } ∧ SameRegs s t ∧ SameHiLo s t ∧
      t.tlb = s.tlb ∧ SameMemory s t ∧ SameBus s t

/-- 44 R352 to R364: a conditional trap raises Trap where its condition holds and has no effect where it does
not. -/
def Obligations.ConditionalTraps : Prop :=
  ∀ (s : State) (rs rt : RegNum) (code : BitVec 10) (imm : BitVec 16),
    let a := s.reg rs; let b := s.reg rt
    let traps : List (Instr × Bool) :=
      [(.tge rs rt code, decide (b.toInt ≤ a.toInt)), (.tgeu rs rt code, decide (b.toNat ≤ a.toNat)),
       (.tlt rs rt code, decide (a.toInt < b.toInt)), (.tltu rs rt code, decide (a.toNat < b.toNat)),
       (.teq rs rt code, decide (a = b)), (.tne rs rt code, decide (a ≠ b)),
       (.tgei rs imm, decide (imm.toInt ≤ a.toInt)),
       (.tgeiu rs imm, decide (imm.toInt % 2 ^ 64 ≤ (a.toNat : Int))),
       (.tlti rs imm, decide (a.toInt < imm.toInt)),
       (.tltiu rs imm, decide ((a.toNat : Int) < imm.toInt % 2 ^ 64)),
       (.teqi rs imm, decide (a.toInt = imm.toInt)), (.tnei rs imm, decide (a.toInt ≠ imm.toInt))]
    ∀ p ∈ traps, (p.2 = true → Enters (exec p.1 s) .trap s) ∧ (p.2 = false → OnlyAdvances (exec p.1 s) s)

/-- 44 R350, R351, R374 to R385: SYSCALL, BREAK and the coprocessor 1 to 3 encodings take their exception in
every mode. -/
def Obligations.AlwaysRaise : Prop :=
  ∀ (s : State) (code : BitVec 20) (cofun : BitVec 26) (base rt : RegNum) (offset : BitVec 16),
    Enters (exec (.syscall code) s) .syscall s ∧ Enters (exec (.breakpoint code) s) .breakpoint s ∧
    ∀ p ∈ ([(.cop1 cofun, 1#2), (.cop2 cofun, 2#2), (.cop3 cofun, 3#2), (.lwc1 base rt offset, 1#2),
        (.lwc2 base rt offset, 2#2), (.ldc1 base rt offset, 1#2), (.ldc2 base rt offset, 2#2),
        (.swc1 base rt offset, 1#2), (.swc2 base rt offset, 2#2), (.sdc1 base rt offset, 1#2),
        (.sdc2 base rt offset, 2#2)] : List (Instr × BitVec 2)),
      Enters (exec p.1 s) (.coprocessorUnusable p.2) s

-- The TLB instructions.

/-- 45 R400, R405: TLBR puts the entry at Index into the staging registers, and has no effect where Index is
TLB_SIZE or more. -/
def Obligations.TlbReadIndexed : Prop :=
  ∀ s : State, s.cp0.kernelMode = true ∨ s.cp0.cu0 = true →
    (let lo := fun (h : TlbHalf) (g : Bool) =>
        BitVec.ofNat 64 (h.pfn.toNat * 64 + h.c.toNat * 8 + h.d.toNat * 4 + h.v.toNat * 2 + g.toNat);
      ∀ e, s.tlb[s.cp0.index.toNat % 64]? = some e →
        WritesCp0 (exec .tlbr s) s { s.cp0 with
          entryHi := BitVec.ofNat 64 (e.r.toNat * 2 ^ 62 + e.vpn2.toNat * 2 ^ 13 + e.asid.toNat)
          pageMask := BitVec.ofNat 32 (e.mask.toNat * 2 ^ 13)
          entryLo0 := lo e.even e.g
          entryLo1 := lo e.odd e.g }) ∧
    (s.tlbSize ≤ s.cp0.index.toNat % 64 → OnlyAdvances (exec .tlbr s) s)

/-- 45 R401, R402, R405: TLBWI and TLBWR write the composed entry to the slot at Index and Random; an Index of
TLB_SIZE or more writes nothing (R401); TLBWR then moves Random down, or to TLB_SIZE-1 where it is not above
Wired. That TLBWR takes bits 5:0 of Random and writes nothing where they name no slot is the model's choice (log
entry 13): R402 has no such case, and no sound state has it. -/
def Obligations.TlbWrites : Prop :=
  ∀ s : State, s.cp0.kernelMode = true ∨ s.cp0.cu0 = true →
    let c := s.cp0
    let half := fun (v : DWord) => (
      { pfn := BitVec.ofNat 24 (v.toNat / 64)
        c := BitVec.ofNat 3 (v.toNat / 8)
        d := v.getLsbD 2
        v := v.getLsbD 1 } : TlbHalf)
    let entry : TlbEntry :=
      { present := true
        r := BitVec.ofNat 2 (c.entryHi.toNat / 2 ^ 62)
        vpn2 := BitVec.ofNat 27 (c.entryHi.toNat / 2 ^ 13)
        mask := BitVec.ofNat 12 (c.pageMask.toNat / 2 ^ 13)
        asid := BitVec.ofNat 8 c.entryHi.toNat
        g := c.entryLo0.getLsbD 0 && c.entryLo1.getLsbD 0
        even := half c.entryLo0
        odd := half c.entryLo1 }
    (∃ t, exec .tlbwi s = .next t ∧ t.tlb = s.tlb.set (c.index.toNat % 64) entry ∧ t.cp0 = c ∧
      SameRegs s t ∧ SameHiLo s t ∧ t.llbit = s.llbit ∧ SameMemory s t ∧ SameBus s t ∧ Advances s t) ∧
    ∃ t, exec .tlbwr s = .next t ∧ t.tlb = s.tlb.set (c.random.toNat % 64) entry ∧
      t.cp0 = { c with random := BitVec.ofNat 32 (if c.random.toNat % 64 ≤ c.wired.toNat % 64
        then s.tlbSize - 1 else c.random.toNat % 64 - 1) } ∧
      SameRegs s t ∧ SameHiLo s t ∧ t.llbit = s.llbit ∧ SameMemory s t ∧ SameBus s t ∧ Advances s t

/-- 45 R403, R404: TLBP sets Index to the lowest matching slot with P = 0; without a match it sets P and keeps
the slot number. -/
def Obligations.TlbProbe : Prop :=
  ∀ s : State, s.cp0.kernelMode = true ∨ s.cp0.cu0 = true →
    let hit := fun (e : TlbEntry) => e.present = true ∧ e.r = s.cp0.entryHi.extractLsb' 62 2 ∧
      (∀ i, i < 27 → e.mask.getLsbD i = false → e.vpn2.getLsbD i = s.cp0.entryHi.getLsbD (13 + i)) ∧
      (e.g = true ∨ e.asid = s.cp0.entryHi.extractLsb' 0 8)
    (∀ n e, s.tlb[n]? = some e → hit e → (∀ m e', m < n → s.tlb[m]? = some e' → ¬hit e') →
      WritesCp0 (exec .tlbp s) s { s.cp0 with index := BitVec.ofNat 32 n }) ∧
    ((∀ e ∈ s.tlb, ¬hit e) →
      WritesCp0 (exec .tlbp s) s { s.cp0 with index := s.cp0.index ||| 0x80000000#32 })

/-- 45 R405: in a sound state a TLBWI and then a TLBR of the same slot give back the same four registers where
both G bits agree; where they do not, both G bits read 0. -/
def Obligations.TlbWriteThenRead : Prop :=
  ∀ s : State, Inv s → s.cp0.kernelMode = true ∨ s.cp0.cu0 = true → s.cp0.index.toNat % 64 < s.tlbSize →
    ∃ t u, exec .tlbwi s = .next t ∧ exec .tlbr t = .next u ∧ u.cp0.entryHi = s.cp0.entryHi ∧
      u.cp0.pageMask = s.cp0.pageMask ∧
      (s.cp0.entryLo0.getLsbD 0 = s.cp0.entryLo1.getLsbD 0 →
        u.cp0.entryLo0 = s.cp0.entryLo0 ∧ u.cp0.entryLo1 = s.cp0.entryLo1) ∧
      (s.cp0.entryLo0.getLsbD 0 ≠ s.cp0.entryLo1.getLsbD 0 →
        u.cp0.entryLo0 = s.cp0.entryLo0 &&& 0xFFFFFFFFFFFFFFFE#64 ∧
        u.cp0.entryLo1 = s.cp0.entryLo1 &&& 0xFFFFFFFFFFFFFFFE#64)

/-- 10 R72: only TLBWI and TLBWR change the TLB, over an instruction and over a step; reset clears it. -/
def Obligations.OnlyTlbWritesChangeTlb : Prop :=
  (∀ (i : Instr) (s t : State), i ≠ .tlbwi → i ≠ .tlbwr → exec i s = .next t → t.tlb = s.tlb) ∧
    (∀ s t : State, step s = .next t →
      (∀ u, fetchDecode s ≠ .instr .tlbwi u ∧ fetchDecode s ≠ .instr .tlbwr u) → t.tlb = s.tlb) ∧
    ∀ s : State, ∀ e ∈ (hostReset s).tlb, e = TlbEntry.zero

-- Privilege and exceptions.

/-- 60 R471; 30 R159, R161, R164: without kernel mode and without CU0 the CP0 instructions and CACHE raise
Coprocessor Unusable for unit 0. -/
def Obligations.Cp0UnusableRaises : Prop :=
  (∀ s : State, s.cp0.usable = (s.cp0.kernelMode || bitAt s.cp0.status 28)) ∧
    ∀ (i : Instr) (s : State), needsCp0 i = true → s.cp0.usable = false →
      Enters (exec i s) (.coprocessorUnusable 0) s

/-- 60 R470: the three modes from Status, and exactly one of them holds. -/
def Obligations.ModesFromStatus : Prop :=
  ∀ c : Cp0,
    let ksu := c.status.toNat / 8 % 4
    (c.kernelMode = true ↔ bitAt c.status 1 = true ∨ bitAt c.status 2 = true ∨ ksu = 0) ∧
    (c.supervisorMode = true ↔ c.kernelMode = false ∧ ksu = 1) ∧
    (c.userMode = true ↔ c.kernelMode = false ∧ (ksu = 2 ∨ ksu = 3)) ∧
    (c.kernelMode = false → c.supervisorMode = !c.userMode)

/-- 60 R450, R460, R462 to R466: entering an exception. -/
def Obligations.ExceptionEntry : Prop := ∀ (e : Exn) (s : State), Entered e s (takeException e s)

/-- 60 R461: after every entry the core is in kernel mode with interrupts off, KSU and IE are as before, and
clearing EXL restores the mode and interrupt state where EXL was 0. -/
def Obligations.HandlerRunsInKernelMode : Prop :=
  ∀ (e : Exn) (s : State),
    let t := takeException e s
    bitAt t.cp0.status 1 = true ∧ t.cp0.kernelMode = true ∧ t.cp0.interruptReady = false ∧
      t.cp0.ksu = s.cp0.ksu ∧ t.cp0.ie = s.cp0.ie ∧
      (s.cp0.exl = false → (returnFromException t).cp0.status = s.cp0.status ∧
        (returnFromException t).cp0.kernelMode = s.cp0.kernelMode)

/-- 42 R303; 60 R467, R477: an exception taken with EXL = 0 and then ERET go back to the instruction, or to the
branch where the instruction was in a delay slot, with the mode, the registers and memory as they were. -/
def Obligations.EretReplays : Prop :=
  ∀ (e : Exn) (s : State), s.cp0.exl = false →
    ∃ u, exec .eret (takeException e s) = .next u ∧
      u.pc = (if s.inDelaySlot then s.pc - 4#64 else s.pc) ∧ u.branchPending = false ∧
      u.inDelaySlot = false ∧ u.llbit = false ∧ u.cp0.status = s.cp0.status ∧
      bitAt u.cp0.cause 31 = s.inDelaySlot ∧ SameRegs s u ∧ SameHiLo s u ∧ SameMemory s u ∧ u.tlb = s.tlb

-- Host and reset.

/-- 60 R476: the interrupt lines. Bits 1:0 of the mask are ignored and nothing else changes. -/
def Obligations.HostInterruptLines : Prop :=
  ∀ (mask : BitVec 8) (s : State),
    (setHwPending mask s = { s with cp0 := { s.cp0 with cause := (setHwPending mask s).cp0.cause } } ∧
      ∀ i, bitAt (setHwPending mask s).cp0.cause i =
        (bitAt s.cp0.cause i || (decide (10 ≤ i ∧ i ≤ 15) && mask.getLsbD (i - 8)))) ∧
    (clearHwPending mask s = { s with cp0 := { s.cp0 with cause := (clearHwPending mask s).cp0.cause } } ∧
      ∀ i, bitAt (clearHwPending mask s).cp0.cause i =
        (bitAt s.cp0.cause i && !(decide (10 ≤ i ∧ i ≤ 15) && mask.getLsbD (i - 8))))

/-- 70 R500, R502; 00 R5, R6: what reset leaves, field by field, from any state: the parameters, memory and the
bus stay. That the parameters stand in the state, and that State.reset has nothing listed in memory and no
region on the bus, are the model's choices (log entries 1, 4, 5, 6). -/
def Obligations.ResetState : Prop :=
  (∀ s : State,
    let t := hostReset s
    (∀ r, t.reg r = 0#64) ∧ t.regs[0] = 0#64 ∧ t.hi = 0#64 ∧ t.lo = 0#64 ∧ t.pc = 0xFFFFFFFFBFC00000#64 ∧
      t.branchPending = false ∧ t.branchTarget = 0#64 ∧ t.inDelaySlot = false ∧ t.llbit = false ∧
      t.tlb.length = s.tlb.length ∧
      (∀ e ∈ t.tlb, e = ⟨false, 0#2, 0#27, 0#12, 0#8, false, ⟨0#24, 0#3, false, false⟩,
        ⟨0#24, 0#3, false, false⟩⟩) ∧
      t.cp0 = ⟨0#32, 0#32, 0#64, 0#64, 0#64, 0#32, 0#32, 0#64, 0#32, 0#64, 0#32, 0x00400000#32, 0#32, 0#64,
        0x00008000#32, 0#32, 0#64, 0#32, 0#32, 0#64⟩ ∧
      t.countIncrement = s.countIncrement ∧ t.mem = s.mem ∧ t.bus = s.bus ∧ t.busTick = s.busTick) ∧
    hostReset State.reset = State.reset ∧ State.reset.tlb.length = 64 ∧ State.reset.countIncrement = 1#32 ∧
    ∀ (n : Nat) (inc : Word) (m : Memory) (bus : List Region),
      (construct n inc m bus = none ↔ n = 0 ∨ 64 < n ∨ inc = 0#32) ∧
      ∀ s, construct n inc m bus = some s → s = hostReset s ∧ s.tlb.length = n ∧ s.countIncrement = inc ∧
        s.mem = m ∧ s.bus = bus

-- Invariants.

/-- 10 R87 with R20, R42 to R70: the state after reset is sound. -/
def Obligations.ResetIsSound : Prop := Inv State.reset

/-- 10 R87 (1) to (3), with the reserved bits of R42 to R65, the codes of 60 R451 and the canonical form of
memory: every step keeps a sound state sound. -/
def Obligations.StepKeepsInvariant : Prop := ∀ s t : State, Inv s → step s = .next t → Inv t

/-- 60 R476; 70 R502: what the host does between steps keeps a sound state sound. -/
def Obligations.HostKeepsInvariant : Prop :=
  ∀ (s : State) (mask : BitVec 8), Inv s →
    Inv (hostReset s) ∧ Inv (setHwPending mask s) ∧ Inv (clearHwPending mask s)
end

