-- ==== Sys2Proof/Laws/Memory.lean ====
section
/-! SUPPORT. The laws of memory: read after write, and the canonical form. -/

namespace Sys2Proof.Machine

/-- A write leaves every other address alone, in every memory. -/
theorem Memory.read_write_ne (m : Memory) (a b : Nat) (v : Byte) (h : b ≠ a) :
    Memory.read (Memory.write m a v) b = Memory.read m b := by
  induction m with
  | nil =>
    have h' : a ≠ b := fun e => h e.symm
    unfold Memory.write
    split <;> simp [Memory.read, h']
  | cons p m ih =>
    obtain ⟨k, c⟩ := p
    have h' : a ≠ b := fun e => h e.symm
    unfold Memory.write
    split
    · split
      · rfl
      · simp [Memory.read, h']
    · split
      · rename_i h2
        have h3 : k ≠ b := by omega
        split <;> simp [Memory.read, h', h3]
      · simp [Memory.read, ih]

/-- An address below every listed one reads as unlisted. -/
theorem Memory.read_of_wfFrom (m : Memory) (lo a : Nat) (h : Memory.wfFrom lo m = true) (ha : a < lo) :
    Memory.read m a = unlistedByte := by
  induction m generalizing lo with
  | nil => rfl
  | cons p m ih =>
    obtain ⟨k, c⟩ := p
    simp only [Memory.wfFrom, Bool.and_eq_true, decide_eq_true_eq] at h
    have h1 : k ≠ a := by omega
    simp only [Memory.read, h1, if_false]
    exact ih (k + 1) h.2 (by omega)

theorem Memory.read_write_same_from (m : Memory) (lo a : Nat) (v : Byte)
    (h : Memory.wfFrom lo m = true) : Memory.read (Memory.write m a v) a = v := by
  induction m generalizing lo with
  | nil =>
    unfold Memory.write
    split
    · rename_i hv; simp [Memory.read, hv]
    · simp [Memory.read]
  | cons p m ih =>
    obtain ⟨k, c⟩ := p
    simp only [Memory.wfFrom, Bool.and_eq_true, decide_eq_true_eq] at h
    unfold Memory.write
    split
    · rename_i hlt
      split
      · rename_i hv
        have h1 : k ≠ a := by omega
        simp only [Memory.read, h1, if_false, hv]
        exact Memory.read_of_wfFrom m (k + 1) a h.2 (by omega)
      · simp [Memory.read]
    · split
      · rename_i heq
        split
        · rename_i hv
          rw [hv]
          exact Memory.read_of_wfFrom m (k + 1) a h.2 (by omega)
        · simp [Memory.read]
      · rename_i h1 h2
        have h3 : k ≠ a := fun e => h2 e.symm
        simp only [Memory.read, h3, if_false]
        exact ih (k + 1) h.2

/-- In canonical memory an address reads back what was written to it. -/
theorem Memory.read_write_same (m : Memory) (a : Nat) (v : Byte) (h : Memory.wf m = true) :
    Memory.read (Memory.write m a v) a = v :=
  Memory.read_write_same_from m 0 a v h

theorem Memory.wfFrom_mono (m : Memory) (lo lo' : Nat) (h : Memory.wfFrom lo m = true) (hle : lo' ≤ lo) :
    Memory.wfFrom lo' m = true := by
  cases m with
  | nil => rfl
  | cons p m =>
    simp only [Memory.wfFrom, Bool.and_eq_true, decide_eq_true_eq] at h ⊢
    exact ⟨⟨⟨by omega, h.1.1.2⟩, h.1.2⟩, h.2⟩

theorem Memory.wfFrom_write (m : Memory) (lo a : Nat) (v : Byte) (h : Memory.wfFrom lo m = true)
    (hlo : lo ≤ a) (ha : a < 2 ^ 36) : Memory.wfFrom lo (Memory.write m a v) = true := by
  induction m generalizing lo with
  | nil =>
    unfold Memory.write
    split
    · rfl
    · rename_i hv
      simp [Memory.wfFrom, hlo, hv]
      omega
  | cons p m ih =>
    obtain ⟨k, c⟩ := p
    have hw := h
    simp only [Memory.wfFrom, Bool.and_eq_true, decide_eq_true_eq] at h
    unfold Memory.write
    split
    · split
      · exact hw
      · rename_i hv
        simp only [Memory.wfFrom, Bool.and_eq_true, decide_eq_true_eq]
        exact ⟨⟨⟨hlo, ha⟩, hv⟩, ⟨⟨by omega, h.1.1.2⟩, h.1.2⟩, h.2⟩
    · split
      · rename_i heq
        split
        · exact Memory.wfFrom_mono m (k + 1) lo h.2 (by omega)
        · rename_i hv
          simp only [Memory.wfFrom, Bool.and_eq_true, decide_eq_true_eq]
          exact ⟨⟨⟨hlo, ha⟩, hv⟩, heq ▸ h.2⟩
      · rename_i h1 h2
        simp only [Memory.wfFrom, Bool.and_eq_true, decide_eq_true_eq]
        exact ⟨h.1, ih (k + 1) h.2 (by omega)⟩

/-- Writing a byte of the physical space keeps the canonical form. -/
theorem Memory.wf_write (m : Memory) (a : Nat) (v : Byte) (h : Memory.wf m = true) (ha : a < 2 ^ 36) :
    Memory.wf (Memory.write m a v) = true :=
  Memory.wfFrom_write m 0 a v h (Nat.zero_le a) ha

/-- Reset memory has the canonical form. -/
theorem reset_mem_wf : Memory.wf State.reset.mem = true := rfl

end Sys2Proof.Machine
end

