-- ==== Sys2Proof/Laws/Translate.lean ====
section
/-! SUPPORT. What translation can answer, what it depends on, and that it keeps the offset in a page. -/

namespace Sys2Proof.Machine

/-- Translation looks at the CP0 registers and the TLB only. -/
theorem translate_congr (va : DWord) (acc : AccessKind) (s t : State) (hc : t.cp0 = s.cp0)
    (ht : t.tlb = s.tlb) : translate va acc t = translate va acc s := by
  unfold translate tlbLookup
  rw [hc, ht]

theorem translateAligned_congr (va : DWord) (w : Width) (acc : AccessKind) (s t : State)
    (hc : t.cp0 = s.cp0) (ht : t.tlb = s.tlb) :
    translateAligned va w acc t = translateAligned va w acc s := by
  unfold translateAligned
  rw [translate_congr va acc s t hc ht]

/-- An aligned access that reaches the bus was aligned and translated. -/
theorem translateAligned_eq_ok {va : DWord} {w : Width} {acc : AccessKind} {s : State} {pa : PAddr} :
    translateAligned va w acc s = .ok pa ↔ aligned va w = true ∧ translate va acc s = .ok pa := by
  unfold translateAligned
  cases aligned va w <;> simp

/-- What an access that translates has passed, and its physical address. -/
theorem translate_eq_ok {va : DWord} {acc : AccessKind} {s : State} {pa : PAddr}
    (h : translate va acc s = .ok pa) :
    canonical va = true ∧ mayAccess s.cp0 (segmentOf va) = true ∧
      (((segmentOf va = .kseg0 ∨ segmentOf va = .kseg1) ∧ pa = (getField va 0 29).setWidth 36) ∨
        tlbLookup va acc s = .ok pa) := by
  unfold translate at h
  split at h
  · simp at h
  · split at h
    · simp at h
    · rename_i h1 h2
      refine ⟨by simpa using h1, by simpa using h2, ?_⟩
      split at h
      · rename_i hs
        exact .inl ⟨.inl hs, by simpa using h.symm⟩
      · rename_i hs
        exact .inl ⟨.inr hs, by simpa using h.symm⟩
      all_goals exact .inr h

/-- What a lookup that hits has found. -/
theorem tlbLookup_eq_ok {va : DWord} {acc : AccessKind} {s : State} {pa : PAddr}
    (h : tlbLookup va acc s = .ok pa) :
    ∃ n e, firstMatch (getField va 62 2) (getField va 13 27) s.cp0.asid 0 s.tlb = some (n, e) ∧
      (e.half va).v = true ∧ (acc = .store → (e.half va).d = true) ∧
      pa = e.physAddr (e.half va).pfn va := by
  unfold tlbLookup at h
  split at h
  · simp at h
  · rename_i n e hm
    split at h
    · simp at h
    · split at h
      · simp at h
      · rename_i h1 h2
        refine ⟨n, e, hm, by simpa using h1, ?_, by simpa using h.symm⟩
        intro ha
        simpa [ha] using h2

/-- The first match is an entry of the list that matches, and no earlier one does. -/
theorem firstMatch_eq_some {r : BitVec 2} {vpn2 : BitVec 27} {asid : BitVec 8} {es : List TlbEntry} :
    ∀ {i n : Nat} {e : TlbEntry}, firstMatch r vpn2 asid i es = some (n, e) →
      ∃ k, n = i + k ∧ es[k]? = some e ∧ e.matchesPage r vpn2 asid = true ∧
        ∀ j, j < k → ∀ e', es[j]? = some e' → e'.matchesPage r vpn2 asid = false := by
  induction es with
  | nil => intro i n e h; simp [firstMatch] at h
  | cons x es ih =>
    intro i n e h
    unfold firstMatch at h
    split at h
    · rename_i hx
      simp only [Option.some.injEq, Prod.mk.injEq] at h
      refine ⟨0, by omega, by simp [h.2], by rw [← h.2]; exact hx, ?_⟩
      intro j hj
      omega
    · rename_i hx
      obtain ⟨k, hn, hk, hm, hlt⟩ := ih h
      refine ⟨k + 1, by omega, by simpa using hk, hm, ?_⟩
      intro j hj e' he'
      cases j with
      | zero =>
        simp only [List.getElem?_cons_zero, Option.some.injEq] at he'
        rw [← he']
        simpa using hx
      | succ j => exact hlt j (by omega) e' (by simpa using he')

/-- There is no first match exactly where no entry matches. -/
theorem firstMatch_eq_none {r : BitVec 2} {vpn2 : BitVec 27} {asid : BitVec 8} {es : List TlbEntry} :
    ∀ {i : Nat}, firstMatch r vpn2 asid i es = none ↔ ∀ e ∈ es, e.matchesPage r vpn2 asid = false := by
  induction es with
  | nil => intro i; simp [firstMatch]
  | cons x es ih =>
    intro i
    unfold firstMatch
    split
    · rename_i hx; simp [hx]
    · rename_i hx
      rw [ih]
      simp [hx]

/-- A physical address keeps the low twelve bits of the virtual address. -/
theorem physAddr_getLsbD_low (e : TlbEntry) (pfn : BitVec 24) (va : DWord) (i : Nat) (hi : i < 12) :
    (e.physAddr pfn va).getLsbD i = va.getLsbD i := by
  have h1 : i < 36 := by omega
  have hk : i < e.offsetBits := by unfold TlbEntry.offsetBits; omega
  have hm : e.offMask.getLsbD i = true := by
    unfold TlbEntry.offMask
    rw [BitVec.getLsbD_ofNat, decide_eq_true h1, Bool.true_and, Nat.testBit_two_pow_sub_one]
    exact decide_eq_true hk
  unfold TlbEntry.physAddr
  rw [BitVec.getLsbD_or, BitVec.getLsbD_and, BitVec.getLsbD_and, BitVec.getLsbD_not, hm,
    BitVec.getLsbD_setWidth]
  simp [h1]

theorem translate_getLsbD_low {va : DWord} {acc : AccessKind} {s : State} {pa : PAddr}
    (h : translate va acc s = .ok pa) (i : Nat) (hi : i < 12) : pa.getLsbD i = va.getLsbD i := by
  have h1 : i < 36 := by omega
  have h2 : i < 29 := by omega
  obtain ⟨-, -, ⟨-, rfl⟩ | hl⟩ := translate_eq_ok h
  · rw [BitVec.getLsbD_setWidth]
    unfold getField
    rw [BitVec.getLsbD_extractLsb']
    simp [h1, h2]
  · obtain ⟨n, e, -, -, -, rfl⟩ := tlbLookup_eq_ok hl
    exact physAddr_getLsbD_low e _ va i hi

/-- Translation keeps the offset in a 4 KiB page. -/
theorem translate_mod_4096 {va : DWord} {acc : AccessKind} {s : State} {pa : PAddr}
    (h : translate va acc s = .ok pa) : pa.toNat % 4096 = va.toNat % 4096 := by
  apply Nat.eq_of_testBit_eq
  intro i
  rw [show (4096 : Nat) = 2 ^ 12 from rfl, Nat.testBit_mod_two_pow, Nat.testBit_mod_two_pow]
  by_cases hi : i < 12
  · have := translate_getLsbD_low h i hi
    simp only [BitVec.getLsbD] at this
    rw [this]
  · simp [hi]

/-- The physical address of an aligned access is aligned. -/
theorem translateAligned_aligned {va : DWord} {w : Width} {acc : AccessKind} {s : State} {pa : PAddr}
    (h : translateAligned va w acc s = .ok pa) : pa.toNat % widthBytes w = 0 := by
  obtain ⟨ha, ht⟩ := translateAligned_eq_ok.mp h
  have hm := translate_mod_4096 ht
  have ha' : va.toNat % widthBytes w = 0 := by simpa [aligned] using ha
  cases w <;> simp only [widthBytes] at ha' ⊢ <;> omega

end Sys2Proof.Machine
end

