-- ==== Sys2Proof/Laws/Access.lean ====
section
/-! SUPPORT. Bytes of wide accesses, and what each access primitive can answer. -/

namespace Sys2Proof.Machine

-- Where the bytes of an access lie.

/-- Bytes of an access are in the physical space. -/
theorem byteAddr_lt (pa : PAddr) (i : Nat) : byteAddr pa i < 2 ^ 36 :=
  (pa + BitVec.ofNat 36 i).isLt

/-- The bytes of a naturally aligned access lie one after another. -/
theorem byteAddr_of_aligned (pa : PAddr) (w : Width) (i : Nat) (h : pa.toNat % widthBytes w = 0)
    (hi : i < widthBytes w) : byteAddr pa i = pa.toNat + i := by
  have hp := pa.isLt
  unfold byteAddr
  rw [BitVec.toNat_add, BitVec.toNat_ofNat]
  cases w <;> simp only [widthBytes] at h hi <;> omega

-- Reading and writing wide values.

/-- A wide write keeps the canonical form. -/
theorem wf_writeBytes (m : Memory) (pa : PAddr) (n : Nat) (v : DWord) (h : Memory.wf m = true) :
    Memory.wf (writeBytes m pa n v) = true := by
  induction n generalizing v with
  | zero => exact h
  | succ n ih => exact Memory.wf_write _ _ _ (ih (v >>> 8)) (byteAddr_lt pa n)

/-- A wide write leaves every byte outside it alone, in every memory. -/
theorem read_writeBytes_outside (m : Memory) (pa : PAddr) (n : Nat) (v : DWord) (a : Nat)
    (h : ∀ i, i < n → a ≠ byteAddr pa i) : Memory.read (writeBytes m pa n v) a = Memory.read m a := by
  induction n generalizing v with
  | zero => rfl
  | succ n ih =>
    unfold writeBytes
    rw [Memory.read_write_ne _ _ _ _ (h n (Nat.lt_succ_self n))]
    exact ih (v >>> 8) (fun i hi => h i (Nat.lt_succ_of_lt hi))

/-- Byte `i` of a wide write: the most significant byte lies at the lowest address. -/
theorem read_writeBytes_inside (m : Memory) (pa : PAddr) (n : Nat) (v : DWord) (i : Nat) (hi : i < n)
    (hn : n ≤ 8) (h : Memory.wf m = true) :
    Memory.read (writeBytes m pa n v) (byteAddr pa i) = getField v (8 * (n - 1 - i)) 8 := by
  induction n generalizing v with
  | zero => omega
  | succ n ih =>
    unfold writeBytes
    by_cases he : i = n
    · subst he
      rw [Memory.read_write_same _ _ _ (wf_writeBytes m pa i (v >>> 8) h)]
      simp
    · have hlt : i < n := by omega
      have hne : byteAddr pa i ≠ byteAddr pa n := by
        unfold byteAddr
        rw [BitVec.toNat_add, BitVec.toNat_add, BitVec.toNat_ofNat, BitVec.toNat_ofNat]
        have := pa.isLt
        omega
      rw [Memory.read_write_ne _ _ _ _ hne, ih (v >>> 8) hlt (by omega)]
      unfold getField
      apply BitVec.eq_of_getLsbD_eq
      intro j hj
      have h1 : 8 + (8 * (n - 1 - i) + j) = 8 * (n + 1 - 1 - i) + j := by omega
      rw [BitVec.getLsbD_extractLsb', BitVec.getLsbD_extractLsb', BitVec.getLsbD_ushiftRight, h1]

/-- Byte `j` of a wide read, counted from the least significant. -/
theorem getLsbD_readBytes (m : Memory) (pa : PAddr) (n : Nat) (k : Nat) (hn : n ≤ 8) :
    (readBytes m pa n).getLsbD k =
      (decide (k < 8 * n) && (Memory.read m (byteAddr pa (n - 1 - k / 8))).getLsbD (k % 8)) := by
  induction n generalizing k with
  | zero => simp [readBytes]
  | succ n ih =>
    unfold readBytes
    rw [BitVec.getLsbD_or, BitVec.getLsbD_shiftLeft]
    unfold zext
    rw [BitVec.getLsbD_setWidth]
    by_cases hk : k < 8
    · have h1 : k < 64 := by omega
      have h2 : k < 8 * (n + 1) := by omega
      have h3 : k / 8 = 0 := by omega
      have h4 : k % 8 = k := by omega
      simp [hk, h1, h2, h3, h4]
    · have hz : (Memory.read m (byteAddr pa n)).getLsbD k = false :=
        BitVec.getLsbD_of_ge _ k (by omega)
      rw [hz, ih (k - 8) (by omega)]
      by_cases hk2 : k < 8 * (n + 1)
      · have h1 : k < 64 := by omega
        have h2 : k - 8 < 8 * n := by omega
        have h3 : n - k / 8 = n - 1 - (k - 8) / 8 := by omega
        have h4 : (k - 8) % 8 = k % 8 := by omega
        simp [hk, h1, h2, hk2, h3, h4]
      · have h2 : ¬k - 8 < 8 * n := by omega
        simp [h2, hk2]

-- Plain memory (20 R102, R103, R120, R121).

theorem loadAt_memory (va : DWord) (pa : PAddr) (w : Width) (s : State)
    (h : regionKindAt s.bus pa.toNat = .memory) :
    loadAt va pa w s = .ok (truncateTo w (readBytes s.mem pa (widthBytes w))) s := by
  unfold loadAt busRead
  rw [h]

theorem storeAt_memory (va : DWord) (pa : PAddr) (w : Width) (v : DWord) (s : State)
    (h : regionKindAt s.bus pa.toNat = .memory) :
    storeAt va pa w v s = .ok { s with mem := writeBytes s.mem pa (widthBytes w) (truncateTo w v) } := by
  unfold storeAt busWrite
  rw [h]

theorem memRead_ok (va : DWord) (w : Width) (s : State) (pa : PAddr)
    (h : translateAligned va w .load s = .ok pa) : memRead va w s = loadAt va pa w s := by
  unfold memRead
  rw [h]

theorem memRead_error (va : DWord) (w : Width) (s : State) (e : Exn)
    (h : translateAligned va w .load s = .error e) : memRead va w s = .raised e s := by
  unfold memRead
  rw [h]

theorem memWrite_ok (va : DWord) (w : Width) (v : DWord) (s : State) (pa : PAddr)
    (h : translateAligned va w .store s = .ok pa) : memWrite va w v s = storeAt va pa w v s := by
  unfold memWrite
  rw [h]

theorem memWrite_error (va : DWord) (w : Width) (v : DWord) (s : State) (e : Exn)
    (h : translateAligned va w .store s = .error e) : memWrite va w v s = .raised e s := by
  unfold memWrite
  rw [h]

theorem fetch_memory (va : DWord) (s : State) (pa : PAddr)
    (h : translateAligned va .word .fetch s = .ok pa) (hm : regionKindAt s.bus pa.toNat = .memory) :
    fetch va s = .ok (truncateTo .word (readBytes s.mem pa 4)) s := by
  unfold fetch busRead
  rw [h]
  simp only
  rw [hm]
  rfl

theorem fetch_error (va : DWord) (s : State) (e : Exn)
    (h : translateAligned va .word .fetch s = .error e) : fetch va s = .raised e s := by
  unfold fetch
  rw [h]

theorem readUnit_ok (ea : DWord) (w : Width) (s : State) (pa : PAddr)
    (h : translate ea .load s = .ok pa) : readUnit ea w s = loadAt ea (unitAddr pa w) w s := by
  unfold readUnit
  rw [h]

theorem readUnit_error (ea : DWord) (w : Width) (s : State) (e : Exn)
    (h : translate ea .load s = .error e) : readUnit ea w s = .raised e s := by
  unfold readUnit
  rw [h]

theorem writeUnitBytes_error (ea : DWord) (w : Width) (first last : Nat) (u : DWord) (s : State) (e : Exn)
    (h : translate ea .store s = .error e) : writeUnitBytes ea w first last u s = .raised e s := by
  unfold writeUnitBytes
  rw [h]

-- The state after an access: a property that asking a device and writing bytes keep is kept.

/-- The state in the answer of a read. -/
def ReadResult.state : ReadResult → State
  | .ok _ s => s
  | .raised _ s => s

/-- The state in the answer of a write. -/
def WriteResult.state : WriteResult → State
  | .ok s => s
  | .raised _ s => s

/-- A property of states that the accesses to the bus keep. -/
structure BusClosed (P : State → Prop) : Prop where
  device : ∀ s, P s → P { s with busTick := s.busTick + 1 }
  store : ∀ s pa n v, P s → P { s with mem := writeBytes s.mem pa n v }

theorem askDevice_closed {P : State → Prop} (hP : BusClosed P) (s : State) (accepts : List Width) (w : Width)
    (q : BusRequest) (h : P s) : P (askDevice s accepts w q).2 := by
  unfold askDevice
  split
  · exact hP.device s h
  · exact h

theorem busRead_closed {P : State → Prop} (hP : BusClosed P) (pa : PAddr) (w : Width) (q : BusRequest)
    (s : State) (h : P s) : P (busRead pa w q s).2 := by
  unfold busRead
  split
  · exact h
  · exact h
  · exact askDevice_closed hP s _ w q h

theorem busWrite_closed {P : State → Prop} (hP : BusClosed P) (pa : PAddr) (w : Width) (v : DWord)
    (s : State) (h : P s) : P (busWrite pa w v s).2 := by
  unfold busWrite
  split
  · exact hP.store s pa _ v h
  · exact h
  · exact askDevice_closed hP s _ w _ h

theorem loadAt_closed {P : State → Prop} (hP : BusClosed P) (va : DWord) (pa : PAddr) (w : Width)
    (s : State) (h : P s) : P (loadAt va pa w s).state := by
  have hb := busRead_closed hP pa w (.read pa w) s h
  unfold loadAt
  split <;> (rename_i he; rw [he] at hb; exact hb)

theorem storeAt_closed {P : State → Prop} (hP : BusClosed P) (va : DWord) (pa : PAddr) (w : Width) (v : DWord)
    (s : State) (h : P s) : P (storeAt va pa w v s).state := by
  have hb := busWrite_closed hP pa w (truncateTo w v) s h
  unfold storeAt
  split <;> (rename_i he; rw [he] at hb; exact hb)

theorem memRead_closed {P : State → Prop} (hP : BusClosed P) (va : DWord) (w : Width) (s : State)
    (h : P s) : P (memRead va w s).state := by
  unfold memRead
  split
  · exact h
  · exact loadAt_closed hP va _ w s h

theorem memWrite_closed {P : State → Prop} (hP : BusClosed P) (va : DWord) (w : Width) (v : DWord)
    (s : State) (h : P s) : P (memWrite va w v s).state := by
  unfold memWrite
  split
  · exact h
  · exact storeAt_closed hP va _ w v s h

theorem readUnit_closed {P : State → Prop} (hP : BusClosed P) (ea : DWord) (w : Width) (s : State)
    (h : P s) : P (readUnit ea w s).state := by
  unfold readUnit
  split
  · exact h
  · exact loadAt_closed hP ea _ w s h

theorem writeByteRun_closed {P : State → Prop} (hP : BusClosed P) (ea : DWord) (pa : PAddr) (n : Nat)
    (u : DWord) (count : Nat) :
    ∀ (first : Nat) (s : State), P s → P (writeByteRun ea pa n u first count s).state := by
  induction count with
  | zero => intro first s h; exact h
  | succ count ih =>
    intro first s h
    have hb := storeAt_closed hP ea (pa + BitVec.ofNat 36 first) .byte (u >>> (8 * (n - 1 - first))) s h
    unfold writeByteRun
    split
    · rename_i he; rw [he] at hb; exact ih (first + 1) _ hb
    · rename_i he; rw [he] at hb; exact hb

theorem writeUnitBytes_closed {P : State → Prop} (hP : BusClosed P) (ea : DWord) (w : Width)
    (first last : Nat) (u : DWord) (s : State) (h : P s) :
    P (writeUnitBytes ea w first last u s).state := by
  unfold writeUnitBytes
  split
  · exact h
  · split
    · exact storeAt_closed hP ea _ w u s h
    · exact writeByteRun_closed hP ea _ _ u _ first s h

theorem fetch_closed {P : State → Prop} (hP : BusClosed P) (va : DWord) (s : State) (h : P s) :
    P (fetch va s).state := by
  unfold fetch
  split
  · exact h
  · rename_i pa _
    have hb := busRead_closed hP pa .word (.fetch pa) s h
    split <;> (rename_i he; rw [he] at hb; exact hb)

/-- Every access keeps everything but memory and the number of the next device access. -/
theorem busClosed_core (s : State) :
    BusClosed (fun t => t = { s with mem := t.mem, busTick := t.busTick }) where
  device t h := by rw [h]
  store t pa n v h := by rw [h]

end Sys2Proof.Machine
end

