-- ==== Sys2Proof/Laws/Bits.lean ====
section
/-! SUPPORT. Reading and writing bit fields: what a field reads after one is written, bit by bit and field
by field. -/

namespace Sys2Proof.Machine

theorem getLsbD_getField {n : Nat} (w : BitVec n) (lo len i : Nat) :
    (getField w lo len).getLsbD i = (decide (i < len) && w.getLsbD (lo + i)) := by
  simp [getField]

theorem getLsbD_setField {n len : Nat} (w : BitVec n) (lo : Nat) (v : BitVec len) (i : Nat) :
    (setField w lo v).getLsbD i =
      (decide (i < n) && if lo ≤ i ∧ i < lo + len then v.getLsbD (i - lo) else w.getLsbD i) := by
  by_cases hn : i < n
  · by_cases h1 : lo ≤ i
    · by_cases h2 : i < lo + len
      · have h4 : i - lo < len := by omega
        have h5 : ¬i < lo := by omega
        simp [setField, hn, h1, h2, h4, h5]
      · have h4 : ¬i - lo < len := by omega
        have h6 : v.getLsbD (i - lo) = false := BitVec.getLsbD_of_ge v (i - lo) (by omega)
        simp [setField, hn, h2, h4, h6]
    · have h5 : i < lo := by omega
      simp [setField, hn, h1, h5]
  · have h7 : w.getLsbD i = false := BitVec.getLsbD_of_ge w i (by omega)
    simp [setField, hn, h7]

/-- A field reads back what was written to it. -/
theorem getField_setField_same {n len : Nat} (w : BitVec n) (lo : Nat) (v : BitVec len)
    (h : lo + len ≤ n) : getField (setField w lo v) lo len = v := by
  apply BitVec.eq_of_getLsbD_eq
  intro i hi
  have h1 : lo + i < n := by omega
  have h2 : lo + i < lo + len := by omega
  rw [getLsbD_getField, getLsbD_setField]
  simp only [hi, h1, h2, decide_true, Bool.true_and, Nat.le_add_right, and_self, if_true,
    Nat.add_sub_cancel_left]

/-- A field keeps its value when another one, which shares no bit with it, is written. -/
theorem getField_setField_of_disjoint {n len : Nat} (w : BitVec n) (lo : Nat) (v : BitVec len)
    (lo' len' : Nat) (h : lo' + len' ≤ lo ∨ lo + len ≤ lo') :
    getField (setField w lo v) lo' len' = getField w lo' len' := by
  apply BitVec.eq_of_getLsbD_eq
  intro i hi
  have h1 : ¬(lo ≤ lo' + i ∧ lo' + i < lo + len) := by omega
  rw [getLsbD_getField, getLsbD_getField, getLsbD_setField, if_neg h1]
  by_cases hn : lo' + i < n
  · rw [decide_eq_true hn, Bool.true_and]
  · rw [BitVec.getLsbD_of_ge w _ (by omega), Bool.and_false]

/-- A bit outside a field keeps its value when the field is written. -/
theorem bitAt_setField_of_disjoint {n len : Nat} (w : BitVec n) (lo : Nat) (v : BitVec len) (i : Nat)
    (h : i < lo ∨ lo + len ≤ i) : bitAt (setField w lo v) i = bitAt w i := by
  have h1 : ¬(lo ≤ i ∧ i < lo + len) := by omega
  unfold bitAt
  rw [getLsbD_setField, if_neg h1]
  by_cases hn : i < n
  · rw [decide_eq_true hn, Bool.true_and]
  · rw [BitVec.getLsbD_of_ge w _ (by omega), Bool.and_false]

/-- A one-bit field reads back what was written to it. -/
theorem bitAt_setField_bit {n : Nat} (w : BitVec n) (i : Nat) (b : Bool) (h : i < n) :
    bitAt (setField w i (bit b)) i = b := by
  unfold bitAt
  rw [getLsbD_setField, if_pos ⟨Nat.le_refl i, Nat.lt_succ_self i⟩, decide_eq_true h, Bool.true_and,
    Nat.sub_self]
  cases b <;> rfl

end Sys2Proof.Machine
end

