-- ==== Sys2Proof/Laws/Decode.lean ====
section
/-! SUPPORT. The fields of the encoding formats (30_encoding.md R151), what each mask of the opcode table
keeps of a word, and the byte order of an instruction. -/

namespace Sys2Proof

-- The fields of each format.

@[simp] theorem opOf_formI (op : BitVec 6) (rs rt : RegNum) (imm : BitVec 16) :
    opOf (formI op rs rt imm) = op := by
  apply BitVec.eq_of_getLsbD_eq
  intro i hi
  simp only [opOf, formI, BitVec.getLsbD_extractLsb', BitVec.getLsbD_append]
  interval_cases i <;> simp
@[simp] theorem rsOf_formI (op : BitVec 6) (rs rt : RegNum) (imm : BitVec 16) :
    rsOf (formI op rs rt imm) = rs := by
  apply BitVec.eq_of_getLsbD_eq
  intro i hi
  simp only [rsOf, formI, BitVec.getLsbD_extractLsb', BitVec.getLsbD_append]
  interval_cases i <;> simp
@[simp] theorem rtOf_formI (op : BitVec 6) (rs rt : RegNum) (imm : BitVec 16) :
    rtOf (formI op rs rt imm) = rt := by
  apply BitVec.eq_of_getLsbD_eq
  intro i hi
  simp only [rtOf, formI, BitVec.getLsbD_extractLsb', BitVec.getLsbD_append]
  interval_cases i <;> simp
@[simp] theorem immOf_formI (op : BitVec 6) (rs rt : RegNum) (imm : BitVec 16) :
    immOf (formI op rs rt imm) = imm := by
  apply BitVec.eq_of_getLsbD_eq
  intro i hi
  simp only [immOf, formI, BitVec.getLsbD_extractLsb', BitVec.getLsbD_append]
  interval_cases i <;> simp

@[simp] theorem opOf_formR (op : BitVec 6) (rs rt rd : RegNum) (sa : BitVec 5) (funct : BitVec 6) :
    opOf (formR op rs rt rd sa funct) = op := by
  apply BitVec.eq_of_getLsbD_eq
  intro i hi
  simp only [opOf, formR, BitVec.getLsbD_extractLsb', BitVec.getLsbD_append]
  interval_cases i <;> simp
@[simp] theorem rsOf_formR (op : BitVec 6) (rs rt rd : RegNum) (sa : BitVec 5) (funct : BitVec 6) :
    rsOf (formR op rs rt rd sa funct) = rs := by
  apply BitVec.eq_of_getLsbD_eq
  intro i hi
  simp only [rsOf, formR, BitVec.getLsbD_extractLsb', BitVec.getLsbD_append]
  interval_cases i <;> simp
@[simp] theorem rtOf_formR (op : BitVec 6) (rs rt rd : RegNum) (sa : BitVec 5) (funct : BitVec 6) :
    rtOf (formR op rs rt rd sa funct) = rt := by
  apply BitVec.eq_of_getLsbD_eq
  intro i hi
  simp only [rtOf, formR, BitVec.getLsbD_extractLsb', BitVec.getLsbD_append]
  interval_cases i <;> simp
@[simp] theorem rdOf_formR (op : BitVec 6) (rs rt rd : RegNum) (sa : BitVec 5) (funct : BitVec 6) :
    rdOf (formR op rs rt rd sa funct) = rd := by
  apply BitVec.eq_of_getLsbD_eq
  intro i hi
  simp only [rdOf, formR, BitVec.getLsbD_extractLsb', BitVec.getLsbD_append]
  interval_cases i <;> simp
@[simp] theorem saOf_formR (op : BitVec 6) (rs rt rd : RegNum) (sa : BitVec 5) (funct : BitVec 6) :
    saOf (formR op rs rt rd sa funct) = sa := by
  apply BitVec.eq_of_getLsbD_eq
  intro i hi
  simp only [saOf, formR, BitVec.getLsbD_extractLsb', BitVec.getLsbD_append]
  interval_cases i <;> simp
@[simp] theorem functOf_formR (op : BitVec 6) (rs rt rd : RegNum) (sa : BitVec 5) (funct : BitVec 6) :
    functOf (formR op rs rt rd sa funct) = funct := by
  apply BitVec.eq_of_getLsbD_eq
  intro i hi
  simp only [functOf, formR, BitVec.getLsbD_extractLsb', BitVec.getLsbD_append]
  interval_cases i <;> simp

@[simp] theorem opOf_formJ (op : BitVec 6) (index : BitVec 26) : opOf (formJ op index) = op := by
  apply BitVec.eq_of_getLsbD_eq
  intro i hi
  simp only [opOf, formJ, BitVec.getLsbD_extractLsb', BitVec.getLsbD_append]
  interval_cases i <;> simp
@[simp] theorem indexOf_formJ (op : BitVec 6) (index : BitVec 26) : indexOf (formJ op index) = index := by
  apply BitVec.eq_of_getLsbD_eq
  intro i hi
  simp only [indexOf, formJ, BitVec.getLsbD_extractLsb', BitVec.getLsbD_append]
  interval_cases i <;> simp

@[simp] theorem opOf_formCode (code : BitVec 20) (funct : BitVec 6) : opOf (formCode code funct) = 0#6 := by
  apply BitVec.eq_of_getLsbD_eq
  intro i hi
  simp only [opOf, formCode, BitVec.getLsbD_extractLsb', BitVec.getLsbD_append]
  interval_cases i <;> simp
@[simp] theorem codeOf_formCode (code : BitVec 20) (funct : BitVec 6) :
    codeOf (formCode code funct) = code := by
  apply BitVec.eq_of_getLsbD_eq
  intro i hi
  simp only [codeOf, formCode, BitVec.getLsbD_extractLsb', BitVec.getLsbD_append]
  interval_cases i <;> simp
@[simp] theorem functOf_formCode (code : BitVec 20) (funct : BitVec 6) :
    functOf (formCode code funct) = funct := by
  apply BitVec.eq_of_getLsbD_eq
  intro i hi
  simp only [functOf, formCode, BitVec.getLsbD_extractLsb', BitVec.getLsbD_append]
  interval_cases i <;> simp

@[simp] theorem opOf_formTrap (rs rt : RegNum) (code : BitVec 10) (funct : BitVec 6) :
    opOf (formTrap rs rt code funct) = 0#6 := by
  apply BitVec.eq_of_getLsbD_eq
  intro i hi
  simp only [opOf, formTrap, BitVec.getLsbD_extractLsb', BitVec.getLsbD_append]
  interval_cases i <;> simp
@[simp] theorem rsOf_formTrap (rs rt : RegNum) (code : BitVec 10) (funct : BitVec 6) :
    rsOf (formTrap rs rt code funct) = rs := by
  apply BitVec.eq_of_getLsbD_eq
  intro i hi
  simp only [rsOf, formTrap, BitVec.getLsbD_extractLsb', BitVec.getLsbD_append]
  interval_cases i <;> simp
@[simp] theorem rtOf_formTrap (rs rt : RegNum) (code : BitVec 10) (funct : BitVec 6) :
    rtOf (formTrap rs rt code funct) = rt := by
  apply BitVec.eq_of_getLsbD_eq
  intro i hi
  simp only [rtOf, formTrap, BitVec.getLsbD_extractLsb', BitVec.getLsbD_append]
  interval_cases i <;> simp
@[simp] theorem tcodeOf_formTrap (rs rt : RegNum) (code : BitVec 10) (funct : BitVec 6) :
    tcodeOf (formTrap rs rt code funct) = code := by
  apply BitVec.eq_of_getLsbD_eq
  intro i hi
  simp only [tcodeOf, formTrap, BitVec.getLsbD_extractLsb', BitVec.getLsbD_append]
  interval_cases i <;> simp
@[simp] theorem functOf_formTrap (rs rt : RegNum) (code : BitVec 10) (funct : BitVec 6) :
    functOf (formTrap rs rt code funct) = funct := by
  apply BitVec.eq_of_getLsbD_eq
  intro i hi
  simp only [functOf, formTrap, BitVec.getLsbD_extractLsb', BitVec.getLsbD_append]
  interval_cases i <;> simp

-- What the masks of the opcode table keep (R160).

theorem and_mask_op (w : Word) : w &&& 0xFC000000#32 = opOf w ++ 0#26 := by
  apply BitVec.eq_of_getLsbD_eq
  intro i hi
  simp only [opOf, BitVec.getLsbD_extractLsb', BitVec.getLsbD_append]
  interval_cases i <;> simp

theorem and_mask_funct (w : Word) : w &&& 0xFC00003F#32 = opOf w ++ 0#20 ++ functOf w := by
  apply BitVec.eq_of_getLsbD_eq
  intro i hi
  simp only [opOf, functOf, BitVec.getLsbD_extractLsb', BitVec.getLsbD_append]
  interval_cases i <;> simp

theorem and_mask_regimm (w : Word) : w &&& 0xFC1F0000#32 = opOf w ++ 0#5 ++ rtOf w ++ 0#16 := by
  apply BitVec.eq_of_getLsbD_eq
  intro i hi
  simp only [opOf, rtOf, BitVec.getLsbD_extractLsb', BitVec.getLsbD_append]
  interval_cases i <;> simp

theorem and_mask_cop0 (w : Word) : w &&& 0xFFE00000#32 = opOf w ++ rsOf w ++ 0#21 := by
  apply BitVec.eq_of_getLsbD_eq
  intro i hi
  simp only [opOf, rsOf, BitVec.getLsbD_extractLsb', BitVec.getLsbD_append]
  interval_cases i <;> simp

theorem and_mask_co (w : Word) :
    w &&& 0xFE00003F#32 = opOf w ++ BitVec.ofBool ((rsOf w).getLsbD 4) ++ 0#19 ++ functOf w := by
  apply BitVec.eq_of_getLsbD_eq
  intro i hi
  simp only [opOf, rsOf, functOf, BitVec.getLsbD_extractLsb', BitVec.getLsbD_append]
  interval_cases i <;> simp

-- Bytes.

/-- The four bytes of a word, put together again. -/
theorem wordOfBytes_of_word (w : Word) :
    wordOfBytes (w.extractLsb' 24 8) (w.extractLsb' 16 8) (w.extractLsb' 8 8) (w.extractLsb' 0 8) = w := by
  apply BitVec.eq_of_getLsbD_eq
  intro i hi
  simp only [wordOfBytes, BitVec.getLsbD_extractLsb', BitVec.getLsbD_append]
  interval_cases i <;> simp

/-- Decoding the bytes of a word decodes the word. -/
theorem decodeBytes_bytesOfWord (w : Word) (rest : List Byte) :
    decodeBytes (bytesOfWord w ++ rest) = (decodeWord w).map (fun i => (i, rest)) := by
  simp only [bytesOfWord, List.cons_append, List.nil_append, decodeBytes, wordOfBytes_of_word]
  cases decodeWord w <;> rfl

end Sys2Proof
end

