-- ==== Sys2Proof/Laws/State.lean ====
section
/-! SUPPORT. What each update of the state does to each field, and reading registers after writing them. -/

namespace Sys2Proof.Machine

-- Registers.

@[simp] theorem reg_zero (s : State) : s.reg 0#5 = 0#64 := rfl

theorem reg_eq (s : State) (i : RegNum) (h : i ≠ 0#5) : s.reg i = s.regs[i.toNat]'i.isLt := by
  simp [State.reg, h]

@[simp] theorem setReg_zero (s : State) (v : DWord) : s.setReg 0#5 v = s := rfl

/-- A register reads back what was written to it, x[0] apart. -/
theorem reg_setReg_same (s : State) (i : RegNum) (v : DWord) (h : i ≠ 0#5) : (s.setReg i v).reg i = v := by
  simp [State.reg, State.setReg, h]

/-- A write to one register leaves every other one alone. -/
theorem reg_setReg_ne (s : State) (i j : RegNum) (v : DWord) (h : j ≠ i) :
    (s.setReg i v).reg j = s.reg j := by
  have h' : i.toNat ≠ j.toNat := fun e => h (BitVec.eq_of_toNat_eq e).symm
  by_cases hi : i = 0#5
  · simp [State.setReg, hi]
  · by_cases hj : j = 0#5
    · simp [State.reg, hj]
    · simp [State.reg, State.setReg, hi, hj, Vector.getElem_set_ne, h']

-- The fields that a register write keeps.

@[simp] theorem setReg_hi (s : State) (i : RegNum) (v : DWord) : (s.setReg i v).hi = s.hi := by
  unfold State.setReg; split <;> rfl
@[simp] theorem setReg_lo (s : State) (i : RegNum) (v : DWord) : (s.setReg i v).lo = s.lo := by
  unfold State.setReg; split <;> rfl
@[simp] theorem setReg_pc (s : State) (i : RegNum) (v : DWord) : (s.setReg i v).pc = s.pc := by
  unfold State.setReg; split <;> rfl
@[simp] theorem setReg_branchPending (s : State) (i : RegNum) (v : DWord) :
    (s.setReg i v).branchPending = s.branchPending := by
  unfold State.setReg; split <;> rfl
@[simp] theorem setReg_branchTarget (s : State) (i : RegNum) (v : DWord) :
    (s.setReg i v).branchTarget = s.branchTarget := by
  unfold State.setReg; split <;> rfl
@[simp] theorem setReg_inDelaySlot (s : State) (i : RegNum) (v : DWord) :
    (s.setReg i v).inDelaySlot = s.inDelaySlot := by
  unfold State.setReg; split <;> rfl
@[simp] theorem setReg_llbit (s : State) (i : RegNum) (v : DWord) : (s.setReg i v).llbit = s.llbit := by
  unfold State.setReg; split <;> rfl
@[simp] theorem setReg_cp0 (s : State) (i : RegNum) (v : DWord) : (s.setReg i v).cp0 = s.cp0 := by
  unfold State.setReg; split <;> rfl
@[simp] theorem setReg_tlb (s : State) (i : RegNum) (v : DWord) : (s.setReg i v).tlb = s.tlb := by
  unfold State.setReg; split <;> rfl
@[simp] theorem setReg_countIncrement (s : State) (i : RegNum) (v : DWord) :
    (s.setReg i v).countIncrement = s.countIncrement := by
  unfold State.setReg; split <;> rfl
@[simp] theorem setReg_mem (s : State) (i : RegNum) (v : DWord) : (s.setReg i v).mem = s.mem := by
  unfold State.setReg; split <;> rfl
@[simp] theorem setReg_bus (s : State) (i : RegNum) (v : DWord) : (s.setReg i v).bus = s.bus := by
  unfold State.setReg; split <;> rfl
@[simp] theorem setReg_busTick (s : State) (i : RegNum) (v : DWord) :
    (s.setReg i v).busTick = s.busTick := by
  unfold State.setReg; split <;> rfl

-- setHiLo.

@[simp] theorem setHiLo_regs (s : State) (h l : DWord) : (s.setHiLo h l).regs = s.regs := rfl
@[simp] theorem setHiLo_hi (s : State) (h l : DWord) : (s.setHiLo h l).hi = h := rfl
@[simp] theorem setHiLo_lo (s : State) (h l : DWord) : (s.setHiLo h l).lo = l := rfl
@[simp] theorem setHiLo_pc (s : State) (h l : DWord) : (s.setHiLo h l).pc = s.pc := rfl
@[simp] theorem setHiLo_branchPending (s : State) (h l : DWord) :
    (s.setHiLo h l).branchPending = s.branchPending := rfl
@[simp] theorem setHiLo_branchTarget (s : State) (h l : DWord) : (s.setHiLo h l).branchTarget = s.branchTarget := rfl
@[simp] theorem setHiLo_inDelaySlot (s : State) (h l : DWord) : (s.setHiLo h l).inDelaySlot = s.inDelaySlot := rfl
@[simp] theorem setHiLo_llbit (s : State) (h l : DWord) : (s.setHiLo h l).llbit = s.llbit := rfl
@[simp] theorem setHiLo_cp0 (s : State) (h l : DWord) : (s.setHiLo h l).cp0 = s.cp0 := rfl
@[simp] theorem setHiLo_tlb (s : State) (h l : DWord) : (s.setHiLo h l).tlb = s.tlb := rfl
@[simp] theorem setHiLo_countIncrement (s : State) (h l : DWord) :
    (s.setHiLo h l).countIncrement = s.countIncrement := rfl
@[simp] theorem setHiLo_mem (s : State) (h l : DWord) : (s.setHiLo h l).mem = s.mem := rfl
@[simp] theorem setHiLo_bus (s : State) (h l : DWord) : (s.setHiLo h l).bus = s.bus := rfl
@[simp] theorem setHiLo_busTick (s : State) (h l : DWord) : (s.setHiLo h l).busTick = s.busTick := rfl
@[simp] theorem setHiLo_reg (s : State) (h l : DWord) (i : RegNum) :
    (s.setHiLo h l).reg i = s.reg i := rfl

-- setCp0.

@[simp] theorem setCp0_regs (s : State) (c : Cp0) : (s.setCp0 c).regs = s.regs := rfl
@[simp] theorem setCp0_hi (s : State) (c : Cp0) : (s.setCp0 c).hi = s.hi := rfl
@[simp] theorem setCp0_lo (s : State) (c : Cp0) : (s.setCp0 c).lo = s.lo := rfl
@[simp] theorem setCp0_pc (s : State) (c : Cp0) : (s.setCp0 c).pc = s.pc := rfl
@[simp] theorem setCp0_branchPending (s : State) (c : Cp0) : (s.setCp0 c).branchPending = s.branchPending := rfl
@[simp] theorem setCp0_branchTarget (s : State) (c : Cp0) : (s.setCp0 c).branchTarget = s.branchTarget := rfl
@[simp] theorem setCp0_inDelaySlot (s : State) (c : Cp0) : (s.setCp0 c).inDelaySlot = s.inDelaySlot := rfl
@[simp] theorem setCp0_llbit (s : State) (c : Cp0) : (s.setCp0 c).llbit = s.llbit := rfl
@[simp] theorem setCp0_cp0 (s : State) (c : Cp0) : (s.setCp0 c).cp0 = c := rfl
@[simp] theorem setCp0_tlb (s : State) (c : Cp0) : (s.setCp0 c).tlb = s.tlb := rfl
@[simp] theorem setCp0_countIncrement (s : State) (c : Cp0) : (s.setCp0 c).countIncrement = s.countIncrement := rfl
@[simp] theorem setCp0_mem (s : State) (c : Cp0) : (s.setCp0 c).mem = s.mem := rfl
@[simp] theorem setCp0_bus (s : State) (c : Cp0) : (s.setCp0 c).bus = s.bus := rfl
@[simp] theorem setCp0_busTick (s : State) (c : Cp0) : (s.setCp0 c).busTick = s.busTick := rfl
@[simp] theorem setCp0_reg (s : State) (c : Cp0) (i : RegNum) :
    (s.setCp0 c).reg i = s.reg i := rfl

-- setLlbit.

@[simp] theorem setLlbit_regs (s : State) (b : Bool) : (s.setLlbit b).regs = s.regs := rfl
@[simp] theorem setLlbit_hi (s : State) (b : Bool) : (s.setLlbit b).hi = s.hi := rfl
@[simp] theorem setLlbit_lo (s : State) (b : Bool) : (s.setLlbit b).lo = s.lo := rfl
@[simp] theorem setLlbit_pc (s : State) (b : Bool) : (s.setLlbit b).pc = s.pc := rfl
@[simp] theorem setLlbit_branchPending (s : State) (b : Bool) : (s.setLlbit b).branchPending = s.branchPending := rfl
@[simp] theorem setLlbit_branchTarget (s : State) (b : Bool) : (s.setLlbit b).branchTarget = s.branchTarget := rfl
@[simp] theorem setLlbit_inDelaySlot (s : State) (b : Bool) : (s.setLlbit b).inDelaySlot = s.inDelaySlot := rfl
@[simp] theorem setLlbit_llbit (s : State) (b : Bool) : (s.setLlbit b).llbit = b := rfl
@[simp] theorem setLlbit_cp0 (s : State) (b : Bool) : (s.setLlbit b).cp0 = s.cp0 := rfl
@[simp] theorem setLlbit_tlb (s : State) (b : Bool) : (s.setLlbit b).tlb = s.tlb := rfl
@[simp] theorem setLlbit_countIncrement (s : State) (b : Bool) : (s.setLlbit b).countIncrement = s.countIncrement := rfl
@[simp] theorem setLlbit_mem (s : State) (b : Bool) : (s.setLlbit b).mem = s.mem := rfl
@[simp] theorem setLlbit_bus (s : State) (b : Bool) : (s.setLlbit b).bus = s.bus := rfl
@[simp] theorem setLlbit_busTick (s : State) (b : Bool) : (s.setLlbit b).busTick = s.busTick := rfl
@[simp] theorem setLlbit_reg (s : State) (b : Bool) (i : RegNum) :
    (s.setLlbit b).reg i = s.reg i := rfl

-- setTlb.

@[simp] theorem setTlb_regs (s : State) (n : Nat) (e : TlbEntry) :
    (s.setTlb n e).regs = s.regs := rfl
@[simp] theorem setTlb_hi (s : State) (n : Nat) (e : TlbEntry) : (s.setTlb n e).hi = s.hi := rfl
@[simp] theorem setTlb_lo (s : State) (n : Nat) (e : TlbEntry) : (s.setTlb n e).lo = s.lo := rfl
@[simp] theorem setTlb_pc (s : State) (n : Nat) (e : TlbEntry) : (s.setTlb n e).pc = s.pc := rfl
@[simp] theorem setTlb_branchPending (s : State) (n : Nat) (e : TlbEntry) :
    (s.setTlb n e).branchPending = s.branchPending := rfl
@[simp] theorem setTlb_branchTarget (s : State) (n : Nat) (e : TlbEntry) :
    (s.setTlb n e).branchTarget = s.branchTarget := rfl
@[simp] theorem setTlb_inDelaySlot (s : State) (n : Nat) (e : TlbEntry) :
    (s.setTlb n e).inDelaySlot = s.inDelaySlot := rfl
@[simp] theorem setTlb_llbit (s : State) (n : Nat) (e : TlbEntry) :
    (s.setTlb n e).llbit = s.llbit := rfl
@[simp] theorem setTlb_cp0 (s : State) (n : Nat) (e : TlbEntry) :
    (s.setTlb n e).cp0 = s.cp0 := rfl
@[simp] theorem setTlb_tlb (s : State) (n : Nat) (e : TlbEntry) :
    (s.setTlb n e).tlb = s.tlb.set n e := rfl
@[simp] theorem setTlb_countIncrement (s : State) (n : Nat) (e : TlbEntry) :
    (s.setTlb n e).countIncrement = s.countIncrement := rfl
@[simp] theorem setTlb_mem (s : State) (n : Nat) (e : TlbEntry) :
    (s.setTlb n e).mem = s.mem := rfl
@[simp] theorem setTlb_bus (s : State) (n : Nat) (e : TlbEntry) :
    (s.setTlb n e).bus = s.bus := rfl
@[simp] theorem setTlb_busTick (s : State) (n : Nat) (e : TlbEntry) :
    (s.setTlb n e).busTick = s.busTick := rfl
@[simp] theorem setTlb_reg (s : State) (n : Nat) (e : TlbEntry) (i : RegNum) :
    (s.setTlb n e).reg i = s.reg i := rfl

-- takeException.

@[simp] theorem takeException_regs (s : State) (x : Exn) : (takeException x s).regs = s.regs := rfl
@[simp] theorem takeException_hi (s : State) (x : Exn) : (takeException x s).hi = s.hi := rfl
@[simp] theorem takeException_lo (s : State) (x : Exn) : (takeException x s).lo = s.lo := rfl
@[simp] theorem takeException_pc (s : State) (x : Exn) :
    (takeException x s).pc = vectorOf s.cp0.bev s.cp0.exl x := rfl
@[simp] theorem takeException_branchPending (s : State) (x : Exn) : (takeException x s).branchPending = false := rfl
@[simp] theorem takeException_branchTarget (s : State) (x : Exn) : (takeException x s).branchTarget = s.branchTarget := rfl
@[simp] theorem takeException_inDelaySlot (s : State) (x : Exn) : (takeException x s).inDelaySlot = false := rfl
@[simp] theorem takeException_llbit (s : State) (x : Exn) : (takeException x s).llbit = s.llbit := rfl
@[simp] theorem takeException_cp0 (s : State) (x : Exn) :
    (takeException x s).cp0 = s.cp0.enter x s.pc s.inDelaySlot := rfl
@[simp] theorem takeException_tlb (s : State) (x : Exn) : (takeException x s).tlb = s.tlb := rfl
@[simp] theorem takeException_countIncrement (s : State) (x : Exn) :
    (takeException x s).countIncrement = s.countIncrement := rfl
@[simp] theorem takeException_mem (s : State) (x : Exn) : (takeException x s).mem = s.mem := rfl
@[simp] theorem takeException_bus (s : State) (x : Exn) : (takeException x s).bus = s.bus := rfl
@[simp] theorem takeException_busTick (s : State) (x : Exn) : (takeException x s).busTick = s.busTick := rfl
@[simp] theorem takeException_reg (s : State) (x : Exn) (i : RegNum) :
    (takeException x s).reg i = s.reg i := rfl

-- sequence: it touches only pc and the delay-slot state.

@[simp] theorem sequence_regs (f : Flow) (s : State) : (sequence f s).regs = s.regs := by
  cases f <;> rfl
@[simp] theorem sequence_hi (f : Flow) (s : State) : (sequence f s).hi = s.hi := by
  cases f <;> rfl
@[simp] theorem sequence_lo (f : Flow) (s : State) : (sequence f s).lo = s.lo := by
  cases f <;> rfl
@[simp] theorem sequence_llbit (f : Flow) (s : State) : (sequence f s).llbit = s.llbit := by
  cases f <;> rfl
@[simp] theorem sequence_cp0 (f : Flow) (s : State) : (sequence f s).cp0 = s.cp0 := by
  cases f <;> rfl
@[simp] theorem sequence_tlb (f : Flow) (s : State) : (sequence f s).tlb = s.tlb := by
  cases f <;> rfl
@[simp] theorem sequence_countIncrement (f : Flow) (s : State) : (sequence f s).countIncrement = s.countIncrement := by
  cases f <;> rfl
@[simp] theorem sequence_mem (f : Flow) (s : State) : (sequence f s).mem = s.mem := by
  cases f <;> rfl
@[simp] theorem sequence_bus (f : Flow) (s : State) : (sequence f s).bus = s.bus := by
  cases f <;> rfl
@[simp] theorem sequence_busTick (f : Flow) (s : State) : (sequence f s).busTick = s.busTick := by
  cases f <;> rfl
@[simp] theorem sequence_reg (f : Flow) (s : State) (i : RegNum) : (sequence f s).reg i = s.reg i := by
  cases f <;> rfl

/-- The TLB keeps its size. -/
@[simp] theorem setTlb_tlbSize (s : State) (n : Nat) (e : TlbEntry) : (s.setTlb n e).tlbSize = s.tlbSize := by
  simp [State.tlbSize]

@[simp] theorem setReg_tlbSize (s : State) (i : RegNum) (v : DWord) : (s.setReg i v).tlbSize = s.tlbSize := by
  simp [State.tlbSize]

@[simp] theorem setLlbit_tlbSize (s : State) (b : Bool) : (s.setLlbit b).tlbSize = s.tlbSize := rfl

@[simp] theorem setCp0_tlbSize (s : State) (c : Cp0) : (s.setCp0 c).tlbSize = s.tlbSize := rfl

end Sys2Proof.Machine
end

