-- ==== Sys2Proof/Laws/Exec.lean ====
section
/-! SUPPORT. Everything that an instruction and a step can do to the state, said once: a property that each
of the named updates keeps is kept by every instruction and by every step. -/

namespace Sys2Proof.Machine

/-- A property of states that every update an instruction or a step makes keeps, but for the two that only
TLBWI and TLBWR make. -/
structure InstrClosed (P : State → Prop) : Prop extends BusClosed P where
  setReg : ∀ s i v, P s → P (s.setReg i v)
  setHiLo : ∀ s h l, P s → P (s.setHiLo h l)
  setLlbit : ∀ s b, P s → P (s.setLlbit b)
  llAddr : ∀ s w, P s → P (s.setCp0 { s.cp0 with llAddr := w })
  write : ∀ s n v, P s → P (s.setCp0 (s.cp0.write s.tlbSize n v))
  clearExl : ∀ s, P s → P (s.setCp0 (s.cp0.setExl false))
  decompose : ∀ s e, e ∈ s.tlb → P s → P (s.setCp0 (decomposeEntry s.cp0 e))
  probeHit : ∀ s n, n < s.tlbSize → P s → P (s.setCp0 (s.cp0.noteProbe (some n)))
  probeMiss : ∀ s, P s → P (s.setCp0 (s.cp0.noteProbe none))
  sequence : ∀ s f, P s → P (Machine.sequence f s)
  take : ∀ s e, P s → P (takeException e s)
  tick : ∀ s, P s → P (s.setCp0 (s.cp0.tick s.countIncrement))

/-- A property of states that every update an instruction or a step makes keeps. -/
structure StepClosed (P : State → Prop) : Prop extends InstrClosed P where
  compose : ∀ s n, P s → P (s.setTlb n (composeEntry s.cp0))
  advanceRandom : ∀ s, P s → P (s.setCp0 (s.cp0.advanceRandom s.tlbSize))

/-- If a result is a next state, the property holds of it. -/
def Leads (P : State → Prop) (r : Result) : Prop := ∀ t, r = .next t → P t

theorem leads_next {P : State → Prop} {s : State} (h : P s) : Leads P (.next s) := by
  intro t ht
  cases ht
  exact h

variable {P : State → Prop} {s : State}

-- The ways an instruction ends.

theorem leads_retire (hP : InstrClosed P) (h : P s) : Leads P (retire s) := leads_next (hP.sequence s _ h)

theorem leads_branch (hP : InstrClosed P) (c : Bool) (t : DWord) (h : P s) : Leads P (branch c t s) :=
  leads_next (hP.sequence s _ h)

theorem leads_branchLikely (hP : InstrClosed P) (c : Bool) (t : DWord) (h : P s) :
    Leads P (branchLikely c t s) :=
  leads_next (hP.sequence s _ h)

theorem leads_raise (hP : InstrClosed P) (e : Exn) (h : P s) : Leads P (raise e s) :=
  leads_next (hP.take s e h)

theorem leads_ite {c : Prop} [Decidable c] {a b : Result} (ha : c → Leads P a) (hb : ¬c → Leads P b) :
    Leads P (if c then a else b) := by
  split
  · exact ha ‹_›
  · exact hb ‹_›

theorem leads_require64 (hP : InstrClosed P) (h : P s) {r : Result} (hr : Leads P r) :
    Leads P (require64 s r) :=
  leads_ite (fun _ => hr) (fun _ => leads_raise hP _ h)

theorem leads_requireCp0 (hP : InstrClosed P) (h : P s) {r : Result} (hr : Leads P r) :
    Leads P (requireCp0 s r) :=
  leads_ite (fun _ => hr) (fun _ => leads_raise hP _ h)

theorem leads_thenTick (hP : InstrClosed P) {r : Result} (hr : Leads P r) : Leads P (thenTick r) := by
  cases r with
  | next u => exact leads_next (hP.tick u (hr u rfl))
  | fault f => intro t ht; cases ht
  | refused f => intro t ht; cases ht

-- The shapes of the families.

theorem leads_retireReg (hP : InstrClosed P) (i : RegNum) (v : DWord) (h : P s) :
    Leads P (retireReg s i v) :=
  leads_retire hP (hP.setReg s i v h)

theorem leads_setReg (hP : InstrClosed P) (i : RegNum) (v : DWord) (h : P s) :
    Leads P (retire (s.setReg i v)) :=
  leads_retire hP (hP.setReg s i v h)

theorem leads_retireExact32 (hP : InstrClosed P) (i : RegNum) (r : Int) (h : P s) :
    Leads P (retireExact32 s i r) :=
  leads_ite (fun _ => leads_raise hP _ h) (fun _ => leads_retireReg hP i _ h)

theorem leads_retireExact64 (hP : InstrClosed P) (i : RegNum) (r : Int) (h : P s) :
    Leads P (retireExact64 s i r) :=
  leads_ite (fun _ => leads_raise hP _ h) (fun _ => leads_retireReg hP i _ h)

theorem leads_setHiLo (hP : InstrClosed P) (a b : DWord) (h : P s) : Leads P (retire (s.setHiLo a b)) :=
  leads_retire hP (hP.setHiLo s a b h)

theorem leads_retireProduct32 (hP : InstrClosed P) (p : Int) (h : P s) : Leads P (retireProduct32 s p) :=
  leads_setHiLo hP _ _ h

theorem leads_retireProduct64 (hP : InstrClosed P) (p : Int) (h : P s) : Leads P (retireProduct64 s p) :=
  leads_setHiLo hP _ _ h

theorem leads_retireDivZero (hP : InstrClosed P) (op : DivOp) (n : DWord) (h : P s) :
    Leads P (retireDivZero s op n) :=
  leads_setHiLo hP _ _ h

theorem leads_retireQuotient32 (hP : InstrClosed P) (q r : Int) (h : P s) :
    Leads P (retireQuotient32 s q r) :=
  leads_setHiLo hP _ _ h

theorem leads_retireQuotient64 (hP : InstrClosed P) (q r : Int) (h : P s) :
    Leads P (retireQuotient64 s q r) :=
  leads_setHiLo hP _ _ h

theorem leads_trapIf (hP : InstrClosed P) (c : Bool) (h : P s) : Leads P (trapIf c s) :=
  leads_ite (fun _ => leads_raise hP _ h) (fun _ => leads_retire hP h)

theorem leads_retireLoad (hP : InstrClosed P) (rt : RegNum) (f : DWord → DWord) (r : ReadResult)
    (h : P r.state) : Leads P (retireLoad rt f r) := by
  cases r with
  | ok v t => exact leads_retire hP (hP.setReg t rt _ h)
  | raised e t => exact leads_raise hP e h

theorem leads_retireStore (hP : InstrClosed P) (r : WriteResult) (h : P r.state) :
    Leads P (retireStore r) := by
  cases r with
  | ok t => exact leads_retire hP h
  | raised e t => exact leads_raise hP e h

theorem leads_loadLinked (hP : InstrClosed P) (rt : RegNum) (f : DWord → DWord) (ea : DWord) (w : Width)
    (h : P s) : Leads P (loadLinked rt f ea w s) := by
  unfold loadLinked
  split
  · exact leads_raise hP _ h
  · rename_i pa _
    have hl := loadAt_closed hP.toBusClosed ea pa w s h
    cases hr : loadAt ea pa w s with
    | ok v t =>
      rw [hr] at hl
      have h2 := hP.llAddr _ (getField pa 4 32) (hP.setLlbit _ true (hP.setReg t rt (f v) hl))
      rw [setLlbit_cp0, setReg_cp0] at h2
      exact leads_retire hP h2
    | raised e t => rw [hr] at hl; exact leads_raise hP e hl

theorem leads_storeConditional (hP : InstrClosed P) (rt : RegNum) (ea : DWord) (w : Width) (h : P s) :
    Leads P (storeConditional rt ea w s) := by
  unfold storeConditional
  split
  · exact leads_raise hP _ h
  · rename_i pa _
    split
    · have hl := storeAt_closed hP.toBusClosed ea pa w (s.reg rt) s h
      cases hr : storeAt ea pa w (s.reg rt) s with
      | ok t =>
        rw [hr] at hl
        exact leads_retire hP (hP.setLlbit _ false (hP.setReg t rt _ hl))
      | raised e t => rw [hr] at hl; exact leads_raise hP e hl
    · exact leads_retire hP (hP.setLlbit _ false (hP.setReg s rt _ h))

theorem leads_returnFromException (hP : InstrClosed P) (h : P s) :
    Leads P (.next (returnFromException s)) :=
  leads_next (hP.sequence _ _ (hP.setLlbit _ false (hP.clearExl s h)))

theorem leads_tlbr (hP : InstrClosed P) (h : P s) : Leads P (execTlbr s) := by
  apply leads_requireCp0 hP h
  split
  · rename_i e he
    exact leads_retire hP (hP.decompose s e (List.mem_of_getElem? he) h)
  · exact leads_retire hP h

theorem leads_tlbwr (hP : StepClosed P) (h : P s) : Leads P (execTlbwr s) := by
  apply leads_requireCp0 hP.toInstrClosed h
  have h2 := hP.advanceRandom _ (hP.compose s s.cp0.randomField h)
  rw [setTlb_cp0, setTlb_tlbSize] at h2
  exact leads_retire hP.toInstrClosed h2

theorem leads_tlbp (hP : InstrClosed P) (h : P s) : Leads P (execTlbp s) := by
  apply leads_requireCp0 hP h
  apply leads_retire hP
  cases hm : firstMatch s.cp0.region s.cp0.vpn2 s.cp0.asid 0 s.tlb with
  | none => exact hP.probeMiss s h
  | some p =>
    obtain ⟨n, e⟩ := p
    obtain ⟨k, hn, hk, -, -⟩ := firstMatch_eq_some hm
    refine hP.probeHit s n ?_ h
    have := (List.getElem?_eq_some_iff.mp hk).1
    unfold State.tlbSize
    omega

/-- A property that every named update but those of the TLB writes keeps is kept by every instruction but
TLBWI and TLBWR. -/
theorem exec_closed_of_ne (hP : InstrClosed P) (i : Instr) (hwi : i ≠ .tlbwi) (hwr : i ≠ .tlbwr) (h : P s) :
    Leads P (exec i s) := by
  cases i with
  | add _ _ _ => exact leads_retireExact32 hP _ _ h
  | addu _ _ _ => exact leads_retireReg hP _ _ h
  | sub _ _ _ => exact leads_retireExact32 hP _ _ h
  | subu _ _ _ => exact leads_retireReg hP _ _ h
  | dadd _ _ _ => exact leads_require64 hP h (leads_retireExact64 hP _ _ h)
  | daddu _ _ _ => exact leads_require64 hP h (leads_retireReg hP _ _ h)
  | dsub _ _ _ => exact leads_require64 hP h (leads_retireExact64 hP _ _ h)
  | dsubu _ _ _ => exact leads_require64 hP h (leads_retireReg hP _ _ h)
  | addi _ _ _ => exact leads_retireExact32 hP _ _ h
  | addiu _ _ _ => exact leads_retireReg hP _ _ h
  | daddi _ _ _ => exact leads_require64 hP h (leads_retireExact64 hP _ _ h)
  | daddiu _ _ _ => exact leads_require64 hP h (leads_retireReg hP _ _ h)
  | slt _ _ _ => exact leads_retireReg hP _ _ h
  | sltu _ _ _ => exact leads_retireReg hP _ _ h
  | slti _ _ _ => exact leads_retireReg hP _ _ h
  | sltiu _ _ _ => exact leads_retireReg hP _ _ h
  | and _ _ _ => exact leads_retireReg hP _ _ h
  | or _ _ _ => exact leads_retireReg hP _ _ h
  | xor _ _ _ => exact leads_retireReg hP _ _ h
  | nor _ _ _ => exact leads_retireReg hP _ _ h
  | andi _ _ _ => exact leads_retireReg hP _ _ h
  | ori _ _ _ => exact leads_retireReg hP _ _ h
  | xori _ _ _ => exact leads_retireReg hP _ _ h
  | lui _ _ => exact leads_retireReg hP _ _ h
  | sll _ _ _ => exact leads_retireReg hP _ _ h
  | srl _ _ _ => exact leads_retireReg hP _ _ h
  | sra _ _ _ => exact leads_retireReg hP _ _ h
  | sllv _ _ _ => exact leads_retireReg hP _ _ h
  | srlv _ _ _ => exact leads_retireReg hP _ _ h
  | srav _ _ _ => exact leads_retireReg hP _ _ h
  | dsll _ _ _ => exact leads_require64 hP h (leads_retireReg hP _ _ h)
  | dsrl _ _ _ => exact leads_require64 hP h (leads_retireReg hP _ _ h)
  | dsra _ _ _ => exact leads_require64 hP h (leads_retireReg hP _ _ h)
  | dsll32 _ _ _ => exact leads_require64 hP h (leads_retireReg hP _ _ h)
  | dsrl32 _ _ _ => exact leads_require64 hP h (leads_retireReg hP _ _ h)
  | dsra32 _ _ _ => exact leads_require64 hP h (leads_retireReg hP _ _ h)
  | dsllv _ _ _ => exact leads_require64 hP h (leads_retireReg hP _ _ h)
  | dsrlv _ _ _ => exact leads_require64 hP h (leads_retireReg hP _ _ h)
  | dsrav _ _ _ => exact leads_require64 hP h (leads_retireReg hP _ _ h)
  | mfhi _ => exact leads_setReg hP _ _ h
  | mflo _ => exact leads_setReg hP _ _ h
  | mthi _ => exact leads_setHiLo hP _ _ h
  | mtlo _ => exact leads_setHiLo hP _ _ h
  | mult _ _ => exact leads_retireProduct32 hP _ h
  | multu _ _ => exact leads_retireProduct32 hP _ h
  | div _ _ => exact leads_ite (fun _ => leads_retireDivZero hP _ _ h) (fun _ => leads_ite (fun _ => leads_setHiLo hP _ _ h) (fun _ => leads_retireQuotient32 hP _ _ h))
  | divu _ _ => exact leads_ite (fun _ => leads_retireDivZero hP _ _ h) (fun _ => leads_retireQuotient32 hP _ _ h)
  | dmult _ _ => exact leads_require64 hP h (leads_retireProduct64 hP _ h)
  | dmultu _ _ => exact leads_require64 hP h (leads_retireProduct64 hP _ h)
  | ddiv _ _ => exact leads_require64 hP h (leads_ite (fun _ => leads_retireDivZero hP _ _ h) (fun _ => leads_ite (fun _ => leads_setHiLo hP _ _ h) (fun _ => leads_retireQuotient64 hP _ _ h)))
  | ddivu _ _ => exact leads_require64 hP h (leads_ite (fun _ => leads_retireDivZero hP _ _ h) (fun _ => leads_retireQuotient64 hP _ _ h))
  | j _ => exact leads_branch hP _ _ h
  | jal _ => exact leads_branch hP _ _ (hP.setReg s _ _ h)
  | jr _ => exact leads_branch hP _ _ h
  | jalr _ _ => exact leads_branch hP _ _ (hP.setReg s _ _ h)
  | beq _ _ _ => exact leads_branch hP _ _ h
  | bne _ _ _ => exact leads_branch hP _ _ h
  | blez _ _ => exact leads_branch hP _ _ h
  | bgtz _ _ => exact leads_branch hP _ _ h
  | bltz _ _ => exact leads_branch hP _ _ h
  | bgez _ _ => exact leads_branch hP _ _ h
  | bltzal _ _ => exact leads_branch hP _ _ (hP.setReg s _ _ h)
  | bgezal _ _ => exact leads_branch hP _ _ (hP.setReg s _ _ h)
  | beql _ _ _ => exact leads_branchLikely hP _ _ h
  | bnel _ _ _ => exact leads_branchLikely hP _ _ h
  | blezl _ _ => exact leads_branchLikely hP _ _ h
  | bgtzl _ _ => exact leads_branchLikely hP _ _ h
  | bltzl _ _ => exact leads_branchLikely hP _ _ h
  | bgezl _ _ => exact leads_branchLikely hP _ _ h
  | bltzall _ _ => exact leads_branchLikely hP _ _ (hP.setReg s _ _ h)
  | bgezall _ _ => exact leads_branchLikely hP _ _ (hP.setReg s _ _ h)
  | lb _ _ _ => exact leads_retireLoad hP _ _ _ (memRead_closed hP.toBusClosed _ _ s h)
  | lbu _ _ _ => exact leads_retireLoad hP _ _ _ (memRead_closed hP.toBusClosed _ _ s h)
  | lh _ _ _ => exact leads_retireLoad hP _ _ _ (memRead_closed hP.toBusClosed _ _ s h)
  | lhu _ _ _ => exact leads_retireLoad hP _ _ _ (memRead_closed hP.toBusClosed _ _ s h)
  | lw _ _ _ => exact leads_retireLoad hP _ _ _ (memRead_closed hP.toBusClosed _ _ s h)
  | lwu _ _ _ => exact leads_require64 hP h (leads_retireLoad hP _ _ _ (memRead_closed hP.toBusClosed _ _ s h))
  | ld _ _ _ => exact leads_require64 hP h (leads_retireLoad hP _ _ _ (memRead_closed hP.toBusClosed _ _ s h))
  | lwl _ _ _ => exact leads_retireLoad hP _ _ _ (readUnit_closed hP.toBusClosed _ _ s h)
  | lwr _ _ _ => exact leads_retireLoad hP _ _ _ (readUnit_closed hP.toBusClosed _ _ s h)
  | ldl _ _ _ => exact leads_require64 hP h (leads_retireLoad hP _ _ _ (readUnit_closed hP.toBusClosed _ _ s h))
  | ldr _ _ _ => exact leads_require64 hP h (leads_retireLoad hP _ _ _ (readUnit_closed hP.toBusClosed _ _ s h))
  | sb _ _ _ => exact leads_retireStore hP _ (memWrite_closed hP.toBusClosed _ _ _ s h)
  | sh _ _ _ => exact leads_retireStore hP _ (memWrite_closed hP.toBusClosed _ _ _ s h)
  | sw _ _ _ => exact leads_retireStore hP _ (memWrite_closed hP.toBusClosed _ _ _ s h)
  | sd _ _ _ => exact leads_require64 hP h (leads_retireStore hP _ (memWrite_closed hP.toBusClosed _ _ _ s h))
  | swl _ _ _ => exact leads_retireStore hP _ (writeUnitBytes_closed hP.toBusClosed _ _ _ _ _ s h)
  | swr _ _ _ => exact leads_retireStore hP _ (writeUnitBytes_closed hP.toBusClosed _ _ _ _ _ s h)
  | sdl _ _ _ => exact leads_require64 hP h (leads_retireStore hP _ (writeUnitBytes_closed hP.toBusClosed _ _ _ _ _ s h))
  | sdr _ _ _ => exact leads_require64 hP h (leads_retireStore hP _ (writeUnitBytes_closed hP.toBusClosed _ _ _ _ _ s h))
  | ll _ _ _ => exact leads_loadLinked hP _ _ _ _ h
  | lld _ _ _ => exact leads_require64 hP h (leads_loadLinked hP _ _ _ _ h)
  | sc _ _ _ => exact leads_storeConditional hP _ _ _ h
  | scd _ _ _ => exact leads_require64 hP h (leads_storeConditional hP _ _ _ h)
  | sync _ => exact leads_retire hP h
  | cache _ _ _ => exact leads_requireCp0 hP h (leads_retire hP h)
  | syscall _ => exact leads_raise hP _ h
  | breakpoint _ => exact leads_raise hP _ h
  | tge _ _ _ => exact leads_trapIf hP _ h
  | tgeu _ _ _ => exact leads_trapIf hP _ h
  | tlt _ _ _ => exact leads_trapIf hP _ h
  | tltu _ _ _ => exact leads_trapIf hP _ h
  | teq _ _ _ => exact leads_trapIf hP _ h
  | tne _ _ _ => exact leads_trapIf hP _ h
  | tgei _ _ => exact leads_trapIf hP _ h
  | tgeiu _ _ => exact leads_trapIf hP _ h
  | tlti _ _ => exact leads_trapIf hP _ h
  | tltiu _ _ => exact leads_trapIf hP _ h
  | teqi _ _ => exact leads_trapIf hP _ h
  | tnei _ _ => exact leads_trapIf hP _ h
  | mfc0 _ _ => exact leads_requireCp0 hP h (leads_setReg hP _ _ h)
  | dmfc0 _ _ => exact leads_requireCp0 hP h (leads_require64 hP h (leads_setReg hP _ _ h))
  | mtc0 _ _ => exact leads_requireCp0 hP h (leads_retire hP (hP.write s _ _ h))
  | dmtc0 _ _ => exact leads_requireCp0 hP h (leads_require64 hP h (leads_retire hP (hP.write s _ _ h)))
  | eret => exact leads_requireCp0 hP h (leads_returnFromException hP h)
  | cop1 _ => exact leads_raise hP _ h
  | cop2 _ => exact leads_raise hP _ h
  | cop3 _ => exact leads_raise hP _ h
  | lwc1 _ _ _ => exact leads_raise hP _ h
  | lwc2 _ _ _ => exact leads_raise hP _ h
  | ldc1 _ _ _ => exact leads_raise hP _ h
  | ldc2 _ _ _ => exact leads_raise hP _ h
  | swc1 _ _ _ => exact leads_raise hP _ h
  | swc2 _ _ _ => exact leads_raise hP _ h
  | sdc1 _ _ _ => exact leads_raise hP _ h
  | sdc2 _ _ _ => exact leads_raise hP _ h
  | tlbr => exact leads_tlbr hP h
  | tlbwi => exact absurd rfl hwi
  | tlbwr => exact absurd rfl hwr
  | tlbp => exact leads_tlbp hP h

/-- A property that every named update keeps is kept by every instruction. -/
theorem exec_closed (hP : StepClosed P) (i : Instr) (h : P s) : Leads P (exec i s) := by
  by_cases hwi : i = .tlbwi
  · rw [hwi]
    exact leads_requireCp0 hP.toInstrClosed h (leads_retire hP.toInstrClosed (hP.compose s _ h))
  · by_cases hwr : i = .tlbwr
    · rw [hwr]
      exact leads_tlbwr hP h
    · exact exec_closed_of_ne hP.toInstrClosed i hwi hwr h

/-- What a step can do, where the property holds after the instruction that the step runs. -/
theorem step_closed_of_exec (hP : InstrClosed P) (h : P s)
    (hx : ∀ i u, fetchDecode s = .instr i u → P u → Leads P (exec i u)) : Leads P (step s) := by
  unfold step
  split
  · exact leads_thenTick hP (leads_raise hP _ h)
  · have hf := fetch_closed hP.toBusClosed s.pc s h
    cases hd : fetchDecode s with
    | raised e t =>
      refine leads_thenTick hP (leads_raise hP e ?_)
      unfold fetchDecode at hd
      cases hr : fetch s.pc s with
      | raised e' t' => rw [hr] at hf hd; cases hd; exact hf
      | ok v t' =>
        rw [hr] at hf hd
        simp only at hd
        cases hb : decodeBytes (bytesOfWord (lowWord v)) with
        | error e' => rw [hb] at hd; cases hd; exact hf
        | ok p => rw [hb] at hd; cases hd
    | instr i t =>
      refine leads_thenTick hP (hx i t hd ?_)
      unfold fetchDecode at hd
      cases hr : fetch s.pc s with
      | raised e' t' => rw [hr] at hd; cases hd
      | ok v t' =>
        rw [hr] at hf hd
        simp only at hd
        cases hb : decodeBytes (bytesOfWord (lowWord v)) with
        | error e' => rw [hb] at hd; cases hd
        | ok p => rw [hb] at hd; cases hd; exact hf

/-- A property that every named update keeps is kept by every step. -/
theorem step_closed (hP : StepClosed P) (h : P s) : Leads P (step s) :=
  step_closed_of_exec hP.toInstrClosed h (fun i _ _ hu => exec_closed hP i hu)

end Sys2Proof.Machine
end

