-- ==== Sys2Proof/Laws/PerInstr.lean ====
section
/-! SUPPORT. Per instruction: its word carries its own row of the opcode table (30_encoding.md R160). -/

namespace Sys2Proof.Laws.TableRow

/-- The word of an instruction has the match of its opcode-table row under that row's mask. -/
def Statement (i : Instr) : Prop := encode i &&& i.tableMask = i.tableMatch

-- What each mask keeps of each format.

theorem rowFunctR (op : BitVec 6) (rs rt rd : RegNum) (sa : BitVec 5) (funct : BitVec 6) :
    formR op rs rt rd sa funct &&& 0xFC00003F#32 = op ++ 0#20 ++ funct := by
  rw [and_mask_funct, opOf_formR, functOf_formR]

theorem rowFunctCode (code : BitVec 20) (funct : BitVec 6) :
    formCode code funct &&& 0xFC00003F#32 = 0#6 ++ 0#20 ++ funct := by
  rw [and_mask_funct, opOf_formCode, functOf_formCode]

theorem rowFunctTrap (rs rt : RegNum) (code : BitVec 10) (funct : BitVec 6) :
    formTrap rs rt code funct &&& 0xFC00003F#32 = 0#6 ++ 0#20 ++ funct := by
  rw [and_mask_funct, opOf_formTrap, functOf_formTrap]

theorem rowOpI (op : BitVec 6) (rs rt : RegNum) (imm : BitVec 16) :
    formI op rs rt imm &&& 0xFC000000#32 = op ++ 0#26 := by
  rw [and_mask_op, opOf_formI]

theorem rowOpJ (op : BitVec 6) (index : BitVec 26) : formJ op index &&& 0xFC000000#32 = op ++ 0#26 := by
  rw [and_mask_op, opOf_formJ]

theorem rowRegimm (op : BitVec 6) (rs rt : RegNum) (imm : BitVec 16) :
    formI op rs rt imm &&& 0xFC1F0000#32 = op ++ 0#5 ++ rt ++ 0#16 := by
  rw [and_mask_regimm, opOf_formI, rtOf_formI]

theorem rowCop0 (op : BitVec 6) (rs rt rd : RegNum) (sa : BitVec 5) (funct : BitVec 6) :
    formR op rs rt rd sa funct &&& 0xFFE00000#32 = op ++ rs ++ 0#21 := by
  rw [and_mask_cop0, opOf_formR, rsOf_formR]

theorem rowCo (op : BitVec 6) (rs rt rd : RegNum) (sa : BitVec 5) (funct : BitVec 6) :
    formR op rs rt rd sa funct &&& 0xFE00003F#32 =
      op ++ BitVec.ofBool (rs.getLsbD 4) ++ 0#19 ++ funct := by
  rw [and_mask_co, opOf_formR, rsOf_formR, functOf_formR]

-- The instructions.

theorem add (rs : RegNum) (rt : RegNum) (rd : RegNum) : Statement (.add rs rt rd) :=
  (rowFunctR 0x00#6 rs rt rd 0#5 0x20#6).trans rfl
theorem addu (rs : RegNum) (rt : RegNum) (rd : RegNum) : Statement (.addu rs rt rd) :=
  (rowFunctR 0x00#6 rs rt rd 0#5 0x21#6).trans rfl
theorem sub (rs : RegNum) (rt : RegNum) (rd : RegNum) : Statement (.sub rs rt rd) :=
  (rowFunctR 0x00#6 rs rt rd 0#5 0x22#6).trans rfl
theorem subu (rs : RegNum) (rt : RegNum) (rd : RegNum) : Statement (.subu rs rt rd) :=
  (rowFunctR 0x00#6 rs rt rd 0#5 0x23#6).trans rfl
theorem dadd (rs : RegNum) (rt : RegNum) (rd : RegNum) : Statement (.dadd rs rt rd) :=
  (rowFunctR 0x00#6 rs rt rd 0#5 0x2C#6).trans rfl
theorem daddu (rs : RegNum) (rt : RegNum) (rd : RegNum) : Statement (.daddu rs rt rd) :=
  (rowFunctR 0x00#6 rs rt rd 0#5 0x2D#6).trans rfl
theorem dsub (rs : RegNum) (rt : RegNum) (rd : RegNum) : Statement (.dsub rs rt rd) :=
  (rowFunctR 0x00#6 rs rt rd 0#5 0x2E#6).trans rfl
theorem dsubu (rs : RegNum) (rt : RegNum) (rd : RegNum) : Statement (.dsubu rs rt rd) :=
  (rowFunctR 0x00#6 rs rt rd 0#5 0x2F#6).trans rfl
theorem addi (rs : RegNum) (rt : RegNum) (imm : BitVec 16) : Statement (.addi rs rt imm) :=
  (rowOpI 0x08#6 rs rt imm).trans rfl
theorem addiu (rs : RegNum) (rt : RegNum) (imm : BitVec 16) : Statement (.addiu rs rt imm) :=
  (rowOpI 0x09#6 rs rt imm).trans rfl
theorem daddi (rs : RegNum) (rt : RegNum) (imm : BitVec 16) : Statement (.daddi rs rt imm) :=
  (rowOpI 0x18#6 rs rt imm).trans rfl
theorem daddiu (rs : RegNum) (rt : RegNum) (imm : BitVec 16) : Statement (.daddiu rs rt imm) :=
  (rowOpI 0x19#6 rs rt imm).trans rfl
theorem slt (rs : RegNum) (rt : RegNum) (rd : RegNum) : Statement (.slt rs rt rd) :=
  (rowFunctR 0x00#6 rs rt rd 0#5 0x2A#6).trans rfl
theorem sltu (rs : RegNum) (rt : RegNum) (rd : RegNum) : Statement (.sltu rs rt rd) :=
  (rowFunctR 0x00#6 rs rt rd 0#5 0x2B#6).trans rfl
theorem slti (rs : RegNum) (rt : RegNum) (imm : BitVec 16) : Statement (.slti rs rt imm) :=
  (rowOpI 0x0A#6 rs rt imm).trans rfl
theorem sltiu (rs : RegNum) (rt : RegNum) (imm : BitVec 16) : Statement (.sltiu rs rt imm) :=
  (rowOpI 0x0B#6 rs rt imm).trans rfl
theorem and (rs : RegNum) (rt : RegNum) (rd : RegNum) : Statement (.and rs rt rd) :=
  (rowFunctR 0x00#6 rs rt rd 0#5 0x24#6).trans rfl
theorem or (rs : RegNum) (rt : RegNum) (rd : RegNum) : Statement (.or rs rt rd) :=
  (rowFunctR 0x00#6 rs rt rd 0#5 0x25#6).trans rfl
theorem xor (rs : RegNum) (rt : RegNum) (rd : RegNum) : Statement (.xor rs rt rd) :=
  (rowFunctR 0x00#6 rs rt rd 0#5 0x26#6).trans rfl
theorem nor (rs : RegNum) (rt : RegNum) (rd : RegNum) : Statement (.nor rs rt rd) :=
  (rowFunctR 0x00#6 rs rt rd 0#5 0x27#6).trans rfl
theorem andi (rs : RegNum) (rt : RegNum) (imm : BitVec 16) : Statement (.andi rs rt imm) :=
  (rowOpI 0x0C#6 rs rt imm).trans rfl
theorem ori (rs : RegNum) (rt : RegNum) (imm : BitVec 16) : Statement (.ori rs rt imm) :=
  (rowOpI 0x0D#6 rs rt imm).trans rfl
theorem xori (rs : RegNum) (rt : RegNum) (imm : BitVec 16) : Statement (.xori rs rt imm) :=
  (rowOpI 0x0E#6 rs rt imm).trans rfl
theorem lui (rt : RegNum) (imm : BitVec 16) : Statement (.lui rt imm) :=
  (rowOpI 0x0F#6 0#5 rt imm).trans rfl
theorem sll (rt : RegNum) (rd : RegNum) (sa : BitVec 5) : Statement (.sll rt rd sa) :=
  (rowFunctR 0x00#6 0#5 rt rd sa 0x00#6).trans rfl
theorem srl (rt : RegNum) (rd : RegNum) (sa : BitVec 5) : Statement (.srl rt rd sa) :=
  (rowFunctR 0x00#6 0#5 rt rd sa 0x02#6).trans rfl
theorem sra (rt : RegNum) (rd : RegNum) (sa : BitVec 5) : Statement (.sra rt rd sa) :=
  (rowFunctR 0x00#6 0#5 rt rd sa 0x03#6).trans rfl
theorem sllv (rs : RegNum) (rt : RegNum) (rd : RegNum) : Statement (.sllv rs rt rd) :=
  (rowFunctR 0x00#6 rs rt rd 0#5 0x04#6).trans rfl
theorem srlv (rs : RegNum) (rt : RegNum) (rd : RegNum) : Statement (.srlv rs rt rd) :=
  (rowFunctR 0x00#6 rs rt rd 0#5 0x06#6).trans rfl
theorem srav (rs : RegNum) (rt : RegNum) (rd : RegNum) : Statement (.srav rs rt rd) :=
  (rowFunctR 0x00#6 rs rt rd 0#5 0x07#6).trans rfl
theorem dsll (rt : RegNum) (rd : RegNum) (sa : BitVec 5) : Statement (.dsll rt rd sa) :=
  (rowFunctR 0x00#6 0#5 rt rd sa 0x38#6).trans rfl
theorem dsrl (rt : RegNum) (rd : RegNum) (sa : BitVec 5) : Statement (.dsrl rt rd sa) :=
  (rowFunctR 0x00#6 0#5 rt rd sa 0x3A#6).trans rfl
theorem dsra (rt : RegNum) (rd : RegNum) (sa : BitVec 5) : Statement (.dsra rt rd sa) :=
  (rowFunctR 0x00#6 0#5 rt rd sa 0x3B#6).trans rfl
theorem dsll32 (rt : RegNum) (rd : RegNum) (sa : BitVec 5) : Statement (.dsll32 rt rd sa) :=
  (rowFunctR 0x00#6 0#5 rt rd sa 0x3C#6).trans rfl
theorem dsrl32 (rt : RegNum) (rd : RegNum) (sa : BitVec 5) : Statement (.dsrl32 rt rd sa) :=
  (rowFunctR 0x00#6 0#5 rt rd sa 0x3E#6).trans rfl
theorem dsra32 (rt : RegNum) (rd : RegNum) (sa : BitVec 5) : Statement (.dsra32 rt rd sa) :=
  (rowFunctR 0x00#6 0#5 rt rd sa 0x3F#6).trans rfl
theorem dsllv (rs : RegNum) (rt : RegNum) (rd : RegNum) : Statement (.dsllv rs rt rd) :=
  (rowFunctR 0x00#6 rs rt rd 0#5 0x14#6).trans rfl
theorem dsrlv (rs : RegNum) (rt : RegNum) (rd : RegNum) : Statement (.dsrlv rs rt rd) :=
  (rowFunctR 0x00#6 rs rt rd 0#5 0x16#6).trans rfl
theorem dsrav (rs : RegNum) (rt : RegNum) (rd : RegNum) : Statement (.dsrav rs rt rd) :=
  (rowFunctR 0x00#6 rs rt rd 0#5 0x17#6).trans rfl
theorem mfhi (rd : RegNum) : Statement (.mfhi rd) :=
  (rowFunctR 0x00#6 0#5 0#5 rd 0#5 0x10#6).trans rfl
theorem mflo (rd : RegNum) : Statement (.mflo rd) :=
  (rowFunctR 0x00#6 0#5 0#5 rd 0#5 0x12#6).trans rfl
theorem mthi (rs : RegNum) : Statement (.mthi rs) :=
  (rowFunctR 0x00#6 rs 0#5 0#5 0#5 0x11#6).trans rfl
theorem mtlo (rs : RegNum) : Statement (.mtlo rs) :=
  (rowFunctR 0x00#6 rs 0#5 0#5 0#5 0x13#6).trans rfl
theorem mult (rs : RegNum) (rt : RegNum) : Statement (.mult rs rt) :=
  (rowFunctR 0x00#6 rs rt 0#5 0#5 0x18#6).trans rfl
theorem multu (rs : RegNum) (rt : RegNum) : Statement (.multu rs rt) :=
  (rowFunctR 0x00#6 rs rt 0#5 0#5 0x19#6).trans rfl
theorem div (rs : RegNum) (rt : RegNum) : Statement (.div rs rt) :=
  (rowFunctR 0x00#6 rs rt 0#5 0#5 0x1A#6).trans rfl
theorem divu (rs : RegNum) (rt : RegNum) : Statement (.divu rs rt) :=
  (rowFunctR 0x00#6 rs rt 0#5 0#5 0x1B#6).trans rfl
theorem dmult (rs : RegNum) (rt : RegNum) : Statement (.dmult rs rt) :=
  (rowFunctR 0x00#6 rs rt 0#5 0#5 0x1C#6).trans rfl
theorem dmultu (rs : RegNum) (rt : RegNum) : Statement (.dmultu rs rt) :=
  (rowFunctR 0x00#6 rs rt 0#5 0#5 0x1D#6).trans rfl
theorem ddiv (rs : RegNum) (rt : RegNum) : Statement (.ddiv rs rt) :=
  (rowFunctR 0x00#6 rs rt 0#5 0#5 0x1E#6).trans rfl
theorem ddivu (rs : RegNum) (rt : RegNum) : Statement (.ddivu rs rt) :=
  (rowFunctR 0x00#6 rs rt 0#5 0#5 0x1F#6).trans rfl
theorem j (index : BitVec 26) : Statement (.j index) :=
  (rowOpJ 0x02#6 index).trans rfl
theorem jal (index : BitVec 26) : Statement (.jal index) :=
  (rowOpJ 0x03#6 index).trans rfl
theorem jr (rs : RegNum) : Statement (.jr rs) :=
  (rowFunctR 0x00#6 rs 0#5 0#5 0#5 0x08#6).trans rfl
theorem jalr (rs : RegNum) (rd : RegNum) : Statement (.jalr rs rd) :=
  (rowFunctR 0x00#6 rs 0#5 rd 0#5 0x09#6).trans rfl
theorem beq (rs : RegNum) (rt : RegNum) (offset : BitVec 16) : Statement (.beq rs rt offset) :=
  (rowOpI 0x04#6 rs rt offset).trans rfl
theorem bne (rs : RegNum) (rt : RegNum) (offset : BitVec 16) : Statement (.bne rs rt offset) :=
  (rowOpI 0x05#6 rs rt offset).trans rfl
theorem blez (rs : RegNum) (offset : BitVec 16) : Statement (.blez rs offset) :=
  (rowOpI 0x06#6 rs 0#5 offset).trans rfl
theorem bgtz (rs : RegNum) (offset : BitVec 16) : Statement (.bgtz rs offset) :=
  (rowOpI 0x07#6 rs 0#5 offset).trans rfl
theorem bltz (rs : RegNum) (offset : BitVec 16) : Statement (.bltz rs offset) :=
  (rowRegimm 0x01#6 rs 0x00#5 offset).trans rfl
theorem bgez (rs : RegNum) (offset : BitVec 16) : Statement (.bgez rs offset) :=
  (rowRegimm 0x01#6 rs 0x01#5 offset).trans rfl
theorem bltzal (rs : RegNum) (offset : BitVec 16) : Statement (.bltzal rs offset) :=
  (rowRegimm 0x01#6 rs 0x10#5 offset).trans rfl
theorem bgezal (rs : RegNum) (offset : BitVec 16) : Statement (.bgezal rs offset) :=
  (rowRegimm 0x01#6 rs 0x11#5 offset).trans rfl
theorem beql (rs : RegNum) (rt : RegNum) (offset : BitVec 16) : Statement (.beql rs rt offset) :=
  (rowOpI 0x14#6 rs rt offset).trans rfl
theorem bnel (rs : RegNum) (rt : RegNum) (offset : BitVec 16) : Statement (.bnel rs rt offset) :=
  (rowOpI 0x15#6 rs rt offset).trans rfl
theorem blezl (rs : RegNum) (offset : BitVec 16) : Statement (.blezl rs offset) :=
  (rowOpI 0x16#6 rs 0#5 offset).trans rfl
theorem bgtzl (rs : RegNum) (offset : BitVec 16) : Statement (.bgtzl rs offset) :=
  (rowOpI 0x17#6 rs 0#5 offset).trans rfl
theorem bltzl (rs : RegNum) (offset : BitVec 16) : Statement (.bltzl rs offset) :=
  (rowRegimm 0x01#6 rs 0x02#5 offset).trans rfl
theorem bgezl (rs : RegNum) (offset : BitVec 16) : Statement (.bgezl rs offset) :=
  (rowRegimm 0x01#6 rs 0x03#5 offset).trans rfl
theorem bltzall (rs : RegNum) (offset : BitVec 16) : Statement (.bltzall rs offset) :=
  (rowRegimm 0x01#6 rs 0x12#5 offset).trans rfl
theorem bgezall (rs : RegNum) (offset : BitVec 16) : Statement (.bgezall rs offset) :=
  (rowRegimm 0x01#6 rs 0x13#5 offset).trans rfl
theorem lb (base : RegNum) (rt : RegNum) (offset : BitVec 16) : Statement (.lb base rt offset) :=
  (rowOpI 0x20#6 base rt offset).trans rfl
theorem lbu (base : RegNum) (rt : RegNum) (offset : BitVec 16) : Statement (.lbu base rt offset) :=
  (rowOpI 0x24#6 base rt offset).trans rfl
theorem lh (base : RegNum) (rt : RegNum) (offset : BitVec 16) : Statement (.lh base rt offset) :=
  (rowOpI 0x21#6 base rt offset).trans rfl
theorem lhu (base : RegNum) (rt : RegNum) (offset : BitVec 16) : Statement (.lhu base rt offset) :=
  (rowOpI 0x25#6 base rt offset).trans rfl
theorem lw (base : RegNum) (rt : RegNum) (offset : BitVec 16) : Statement (.lw base rt offset) :=
  (rowOpI 0x23#6 base rt offset).trans rfl
theorem lwu (base : RegNum) (rt : RegNum) (offset : BitVec 16) : Statement (.lwu base rt offset) :=
  (rowOpI 0x27#6 base rt offset).trans rfl
theorem ld (base : RegNum) (rt : RegNum) (offset : BitVec 16) : Statement (.ld base rt offset) :=
  (rowOpI 0x37#6 base rt offset).trans rfl
theorem lwl (base : RegNum) (rt : RegNum) (offset : BitVec 16) : Statement (.lwl base rt offset) :=
  (rowOpI 0x22#6 base rt offset).trans rfl
theorem lwr (base : RegNum) (rt : RegNum) (offset : BitVec 16) : Statement (.lwr base rt offset) :=
  (rowOpI 0x26#6 base rt offset).trans rfl
theorem ldl (base : RegNum) (rt : RegNum) (offset : BitVec 16) : Statement (.ldl base rt offset) :=
  (rowOpI 0x1A#6 base rt offset).trans rfl
theorem ldr (base : RegNum) (rt : RegNum) (offset : BitVec 16) : Statement (.ldr base rt offset) :=
  (rowOpI 0x1B#6 base rt offset).trans rfl
theorem sb (base : RegNum) (rt : RegNum) (offset : BitVec 16) : Statement (.sb base rt offset) :=
  (rowOpI 0x28#6 base rt offset).trans rfl
theorem sh (base : RegNum) (rt : RegNum) (offset : BitVec 16) : Statement (.sh base rt offset) :=
  (rowOpI 0x29#6 base rt offset).trans rfl
theorem sw (base : RegNum) (rt : RegNum) (offset : BitVec 16) : Statement (.sw base rt offset) :=
  (rowOpI 0x2B#6 base rt offset).trans rfl
theorem sd (base : RegNum) (rt : RegNum) (offset : BitVec 16) : Statement (.sd base rt offset) :=
  (rowOpI 0x3F#6 base rt offset).trans rfl
theorem swl (base : RegNum) (rt : RegNum) (offset : BitVec 16) : Statement (.swl base rt offset) :=
  (rowOpI 0x2A#6 base rt offset).trans rfl
theorem swr (base : RegNum) (rt : RegNum) (offset : BitVec 16) : Statement (.swr base rt offset) :=
  (rowOpI 0x2E#6 base rt offset).trans rfl
theorem sdl (base : RegNum) (rt : RegNum) (offset : BitVec 16) : Statement (.sdl base rt offset) :=
  (rowOpI 0x2C#6 base rt offset).trans rfl
theorem sdr (base : RegNum) (rt : RegNum) (offset : BitVec 16) : Statement (.sdr base rt offset) :=
  (rowOpI 0x2D#6 base rt offset).trans rfl
theorem ll (base : RegNum) (rt : RegNum) (offset : BitVec 16) : Statement (.ll base rt offset) :=
  (rowOpI 0x30#6 base rt offset).trans rfl
theorem lld (base : RegNum) (rt : RegNum) (offset : BitVec 16) : Statement (.lld base rt offset) :=
  (rowOpI 0x34#6 base rt offset).trans rfl
theorem sc (base : RegNum) (rt : RegNum) (offset : BitVec 16) : Statement (.sc base rt offset) :=
  (rowOpI 0x38#6 base rt offset).trans rfl
theorem scd (base : RegNum) (rt : RegNum) (offset : BitVec 16) : Statement (.scd base rt offset) :=
  (rowOpI 0x3C#6 base rt offset).trans rfl
theorem sync (stype : BitVec 5) : Statement (.sync stype) :=
  (rowFunctR 0x00#6 0#5 0#5 0#5 stype 0x0F#6).trans rfl
theorem cache (base : RegNum) (op : BitVec 5) (offset : BitVec 16) : Statement (.cache base op offset) :=
  (rowOpI 0x2F#6 base op offset).trans rfl
theorem syscall (code : BitVec 20) : Statement (.syscall code) :=
  (rowFunctCode code 0x0C#6).trans rfl
theorem breakpoint (code : BitVec 20) : Statement (.breakpoint code) :=
  (rowFunctCode code 0x0D#6).trans rfl
theorem tge (rs : RegNum) (rt : RegNum) (code : BitVec 10) : Statement (.tge rs rt code) :=
  (rowFunctTrap rs rt code 0x30#6).trans rfl
theorem tgeu (rs : RegNum) (rt : RegNum) (code : BitVec 10) : Statement (.tgeu rs rt code) :=
  (rowFunctTrap rs rt code 0x31#6).trans rfl
theorem tlt (rs : RegNum) (rt : RegNum) (code : BitVec 10) : Statement (.tlt rs rt code) :=
  (rowFunctTrap rs rt code 0x32#6).trans rfl
theorem tltu (rs : RegNum) (rt : RegNum) (code : BitVec 10) : Statement (.tltu rs rt code) :=
  (rowFunctTrap rs rt code 0x33#6).trans rfl
theorem teq (rs : RegNum) (rt : RegNum) (code : BitVec 10) : Statement (.teq rs rt code) :=
  (rowFunctTrap rs rt code 0x34#6).trans rfl
theorem tne (rs : RegNum) (rt : RegNum) (code : BitVec 10) : Statement (.tne rs rt code) :=
  (rowFunctTrap rs rt code 0x36#6).trans rfl
theorem tgei (rs : RegNum) (imm : BitVec 16) : Statement (.tgei rs imm) :=
  (rowRegimm 0x01#6 rs 0x08#5 imm).trans rfl
theorem tgeiu (rs : RegNum) (imm : BitVec 16) : Statement (.tgeiu rs imm) :=
  (rowRegimm 0x01#6 rs 0x09#5 imm).trans rfl
theorem tlti (rs : RegNum) (imm : BitVec 16) : Statement (.tlti rs imm) :=
  (rowRegimm 0x01#6 rs 0x0A#5 imm).trans rfl
theorem tltiu (rs : RegNum) (imm : BitVec 16) : Statement (.tltiu rs imm) :=
  (rowRegimm 0x01#6 rs 0x0B#5 imm).trans rfl
theorem teqi (rs : RegNum) (imm : BitVec 16) : Statement (.teqi rs imm) :=
  (rowRegimm 0x01#6 rs 0x0C#5 imm).trans rfl
theorem tnei (rs : RegNum) (imm : BitVec 16) : Statement (.tnei rs imm) :=
  (rowRegimm 0x01#6 rs 0x0E#5 imm).trans rfl
theorem mfc0 (rt : RegNum) (rd : RegNum) : Statement (.mfc0 rt rd) :=
  (rowCop0 0x10#6 0x00#5 rt rd 0#5 0#6).trans rfl
theorem dmfc0 (rt : RegNum) (rd : RegNum) : Statement (.dmfc0 rt rd) :=
  (rowCop0 0x10#6 0x01#5 rt rd 0#5 0#6).trans rfl
theorem mtc0 (rt : RegNum) (rd : RegNum) : Statement (.mtc0 rt rd) :=
  (rowCop0 0x10#6 0x04#5 rt rd 0#5 0#6).trans rfl
theorem dmtc0 (rt : RegNum) (rd : RegNum) : Statement (.dmtc0 rt rd) :=
  (rowCop0 0x10#6 0x05#5 rt rd 0#5 0#6).trans rfl
theorem eret : Statement .eret :=
  (rowCo 0x10#6 0x10#5 0#5 0#5 0#5 0x18#6).trans rfl
theorem cop1 (cofun : BitVec 26) : Statement (.cop1 cofun) :=
  (rowOpJ 0x11#6 cofun).trans rfl
theorem cop2 (cofun : BitVec 26) : Statement (.cop2 cofun) :=
  (rowOpJ 0x12#6 cofun).trans rfl
theorem cop3 (cofun : BitVec 26) : Statement (.cop3 cofun) :=
  (rowOpJ 0x13#6 cofun).trans rfl
theorem lwc1 (base : RegNum) (rt : RegNum) (offset : BitVec 16) : Statement (.lwc1 base rt offset) :=
  (rowOpI 0x31#6 base rt offset).trans rfl
theorem lwc2 (base : RegNum) (rt : RegNum) (offset : BitVec 16) : Statement (.lwc2 base rt offset) :=
  (rowOpI 0x32#6 base rt offset).trans rfl
theorem ldc1 (base : RegNum) (rt : RegNum) (offset : BitVec 16) : Statement (.ldc1 base rt offset) :=
  (rowOpI 0x35#6 base rt offset).trans rfl
theorem ldc2 (base : RegNum) (rt : RegNum) (offset : BitVec 16) : Statement (.ldc2 base rt offset) :=
  (rowOpI 0x36#6 base rt offset).trans rfl
theorem swc1 (base : RegNum) (rt : RegNum) (offset : BitVec 16) : Statement (.swc1 base rt offset) :=
  (rowOpI 0x39#6 base rt offset).trans rfl
theorem swc2 (base : RegNum) (rt : RegNum) (offset : BitVec 16) : Statement (.swc2 base rt offset) :=
  (rowOpI 0x3A#6 base rt offset).trans rfl
theorem sdc1 (base : RegNum) (rt : RegNum) (offset : BitVec 16) : Statement (.sdc1 base rt offset) :=
  (rowOpI 0x3D#6 base rt offset).trans rfl
theorem sdc2 (base : RegNum) (rt : RegNum) (offset : BitVec 16) : Statement (.sdc2 base rt offset) :=
  (rowOpI 0x3E#6 base rt offset).trans rfl
theorem tlbr : Statement .tlbr :=
  (rowCo 0x10#6 0x10#5 0#5 0#5 0#5 0x01#6).trans rfl
theorem tlbwi : Statement .tlbwi :=
  (rowCo 0x10#6 0x10#5 0#5 0#5 0#5 0x02#6).trans rfl
theorem tlbwr : Statement .tlbwr :=
  (rowCo 0x10#6 0x10#5 0#5 0#5 0#5 0x06#6).trans rfl
theorem tlbp : Statement .tlbp :=
  (rowCo 0x10#6 0x10#5 0#5 0#5 0#5 0x08#6).trans rfl

end Sys2Proof.Laws.TableRow
end

