-- ==== Sys2Proof/Laws/Safety.lean ====
section
/-! SUPPORT. What joins the meanings to the terms of Safety.lean: bit vectors as the numbers they stand for,
wide values as bytes of memory, and each way an instruction ends as what it leaves in the state. -/

namespace Sys2Proof.Machine

open Sys2Proof.Safety

-- Numbers (00 R8).

/-- Sign extension of a low word that is the number `r` modulo 2^32. -/
theorem sext_eq_word32 (r : Int) (v : Word) (h : v = BitVec.ofInt 32 r) : sext v = word32 r := by
  subst h
  unfold sext word32
  rw [BitVec.signExtend, BitVec.toInt_ofInt]

/-- The low word of a register as a signed integer. -/
theorem toInt_lowWord (v : DWord) : (lowWord v).toInt = low32s v := by
  unfold lowWord low32s
  rw [BitVec.toInt_setWidth, BitVec.toInt_eq_toNat_bmod]
  simp [Int.bmod_bmod_of_dvd]

/-- The low word of a register as an unsigned integer. -/
theorem toNat_lowWord (v : DWord) : (lowWord v).toNat = low32u v := by
  unfold lowWord low32u
  simp

/-- The low word as a number. -/
theorem lowWord_eq_ofNat (v : DWord) : lowWord v = BitVec.ofNat 32 v.toNat := by
  unfold lowWord
  apply BitVec.eq_of_toNat_eq
  simp

/-- Overflow is that the exact result does not fit. -/
theorem overflows_iff_not_fits (n : Nat) (r : Int) : overflows n r = true ↔ ¬ fits n r := by
  unfold overflows fits; simp; omega

/-- A bit vector is the number it is equal to modulo its range. -/
theorem eq_ofInt_of_toInt {n : Nat} (v : BitVec n) (r : Int) (h : v.toInt = r.bmod (2^n)) :
    v = BitVec.ofInt n r := by
  apply BitVec.eq_of_toInt_eq; rw [BitVec.toInt_ofInt, h]

/-- The sign-extended immediate as a signed integer. -/
theorem toInt_simm (imm : BitVec 16) : (simm imm).toInt = imm.toInt := by
  rw [simm, sext, BitVec.toInt_signExtend_of_le (by omega)]

/-- The sign-extended immediate as an unsigned integer. -/
theorem toNat_simm (imm : BitVec 16) : ((simm imm).toNat : Int) = imm.toInt % 2^64 := by
  rw [← toInt_simm, BitVec.toInt_eq_toNat_bmod]
  have := (simm imm).isLt
  have h := @Int.bmod_emod ((simm imm).toNat) (2^64)
  norm_num at h this ⊢; rw [h]; omega

/-- A truth value as a register holds it. -/
theorem truthValue_eq_oneIf (b : Bool) (p : Prop) [Decidable p] (h : b = decide p) :
    truthValue b = oneIf p := by
  subst h; unfold truthValue oneIf; simp

/-- Sign extension keeps the signed value. -/
theorem sext_eq_word64 {n : Nat} (w : BitVec n) (h : n ≤ 64) : sext w = word64 w.toInt := by
  unfold sext word64
  apply BitVec.eq_of_toInt_eq
  rw [BitVec.toInt_signExtend_of_le h, BitVec.toInt_ofInt]
  symm
  have h1 := BitVec.le_two_mul_toInt (x := w)
  have h2 := BitVec.two_mul_toInt_lt (x := w)
  have h3 : (2:Int)^n ≤ 2^64 := by exact_mod_cast (Nat.pow_le_pow_right (n := 2) (by omega) h)
  apply Int.bmod_eq_of_le <;> push_cast <;> omega

/-- Sign extension of the low word of a register. -/
theorem sext_lowWord (v : DWord) : sext (lowWord v) = word32 (low32s v) := by
  apply sext_eq_word32
  apply BitVec.eq_of_toInt_eq
  rw [toInt_lowWord, BitVec.toInt_ofInt]
  unfold low32s; simp

/-- Sign extension of the low `k` bits of a value below `2^k`. -/
theorem sext_field_eq_word64 (k : Nat) (v : DWord) (hk : k ≤ 64) (hv : v.toNat < 2^k) :
    sext (getField v 0 k) = word64 (Int.bmod v.toNat (2^k)) := by
  unfold sext word64
  apply BitVec.eq_of_toInt_eq
  rw [BitVec.toInt_signExtend_of_le hk, BitVec.toInt_ofInt, BitVec.toInt_eq_toNat_bmod, getField,
      BitVec.extractLsb'_toNat]
  simp only [Nat.shiftRight_zero]
  rw [Nat.mod_eq_of_lt hv]
  symm
  have hk' : (2:Int)^k ≤ 2^64 := by exact_mod_cast (Nat.pow_le_pow_right (n := 2) (by omega) hk)
  have hp : (0:Int) < 2^k := by positivity
  have h1 := Int.le_bmod (x := v.toNat) (m := 2^k) (Nat.two_pow_pos k)
  have h3 := Int.bmod_lt (x := v.toNat) (m := 2^k) (Nat.two_pow_pos k)
  push_cast at h1 h3 ⊢
  apply Int.bmod_eq_of_le
  · push_cast; omega
  · push_cast; omega

/-- Zero extension of the low `k` bits of a value below `2^k`. -/
theorem zext_field_eq_word64 (k : Nat) (v : DWord) (hv : v.toNat < 2^k) :
    zext (getField v 0 k) = word64 (v.toNat) := by
  unfold zext word64
  apply BitVec.eq_of_toNat_eq
  rw [BitVec.toNat_setWidth, getField, BitVec.extractLsb'_toNat, Nat.shiftRight_zero, Nat.mod_eq_of_lt hv]
  simp [v.isLt]

/-- A register holds its own unsigned value. -/
theorem eq_word64_toNat (v : DWord) : v = word64 v.toNat := by
  unfold word64; simp

/-- A field as a quotient. -/
theorem getField_eq_ofNat {n : Nat} (v : BitVec n) (lo len : Nat) :
    getField v lo len = BitVec.ofNat len (v.toNat / 2^lo) := by
  apply BitVec.eq_of_toNat_eq
  rw [getField, BitVec.extractLsb'_toNat, Nat.shiftRight_eq_div_pow, BitVec.toNat_ofNat]

-- Shifts and halves (40 R227 to R241; 41 R260).

/-- A 32-bit left shift multiplies. -/
theorem sext_shiftLeft (v : Word) (n : Nat) : sext (v <<< n) = word32 (v.toNat * 2 ^ n : Int) := by
  apply sext_eq_word32
  apply BitVec.eq_of_toNat_eq
  rw [BitVec.toNat_shiftLeft, Nat.shiftLeft_eq, BitVec.toNat_ofInt]
  norm_cast

/-- A 32-bit logical right shift divides the unsigned value. -/
theorem sext_ushiftRight (v : Word) (n : Nat) : sext (v >>> n) = word32 (v.toNat / 2 ^ n : Nat) := by
  apply sext_eq_word32
  apply BitVec.eq_of_toNat_eq
  rw [BitVec.toNat_ushiftRight, Nat.shiftRight_eq_div_pow, BitVec.toNat_ofInt]
  have : v.toNat / 2^n < 2^32 := lt_of_le_of_lt (Nat.div_le_self _ _) v.isLt
  norm_cast
  rw [Nat.mod_eq_of_lt this]

/-- A 32-bit arithmetic right shift divides the signed value, rounding down. -/
theorem sext_sshiftRight (v : Word) (n : Nat) : sext (v.sshiftRight n) = word32 (v.toInt / 2 ^ n) := by
  apply sext_eq_word32
  apply BitVec.eq_of_toInt_eq
  rw [BitVec.toInt_sshiftRight, Int.shiftRight_eq_div_pow, BitVec.toInt_ofInt]
  rw [Int.bmod_eq_of_le]
  · rfl
  · have h1 := BitVec.le_toInt v
    have : (0:Int) < 2^n := by positivity
    apply Int.le_ediv_of_mul_le this
    have h3 : (1:Int) ≤ 2^n := by have := @Nat.one_le_two_pow n; exact_mod_cast this
    norm_num at h1 ⊢
    nlinarith
  · have h1 := BitVec.toInt_lt (x := v)
    have : (0:Int) < 2^n := by positivity
    apply Int.ediv_lt_of_lt_mul this
    have h3 : (1:Int) ≤ 2^n := by have := @Nat.one_le_two_pow n; exact_mod_cast this
    norm_num at h1 ⊢
    nlinarith

/-- A 64-bit left shift multiplies. -/
theorem shiftLeft_eq_word64 (v : DWord) (n : Nat) : (v <<< n) = word64 (v.toNat * 2 ^ n : Int) := by
  apply BitVec.eq_of_toNat_eq
  rw [BitVec.toNat_shiftLeft, Nat.shiftLeft_eq, word64, BitVec.toNat_ofInt]
  norm_cast

/-- A 64-bit logical right shift divides the unsigned value. -/
theorem ushiftRight_eq_word64 (v : DWord) (n : Nat) : (v >>> n) = word64 (v.toNat / 2 ^ n : Nat) := by
  apply BitVec.eq_of_toNat_eq
  rw [BitVec.toNat_ushiftRight, Nat.shiftRight_eq_div_pow, word64, BitVec.toNat_ofInt]
  have : v.toNat / 2^n < 2^64 := lt_of_le_of_lt (Nat.div_le_self _ _) v.isLt
  norm_cast
  rw [Nat.mod_eq_of_lt this]

/-- A 64-bit arithmetic right shift divides the signed value, rounding down. -/
theorem sshiftRight_eq_word64 (v : DWord) (n : Nat) : (v.sshiftRight n) = word64 (v.toInt / 2 ^ n) := by
  apply BitVec.eq_of_toInt_eq
  rw [BitVec.toInt_sshiftRight, Int.shiftRight_eq_div_pow, word64, BitVec.toInt_ofInt]
  rw [Int.bmod_eq_of_le]
  · rfl
  · have h1 := BitVec.le_toInt v
    have : (0:Int) < 2^n := by positivity
    apply Int.le_ediv_of_mul_le this
    have h3 : (1:Int) ≤ 2^n := by have := @Nat.one_le_two_pow n; exact_mod_cast this
    norm_num at h1 ⊢
    nlinarith
  · have h1 := BitVec.toInt_lt (x := v)
    have : (0:Int) < 2^n := by positivity
    apply Int.ediv_lt_of_lt_mul this
    have h3 : (1:Int) ≤ 2^n := by have := @Nat.one_le_two_pow n; exact_mod_cast this
    norm_num at h1 ⊢
    nlinarith

/-- The amount of a 32-bit variable shift. -/
theorem shiftAmount32_eq (s : State) (rs : RegNum) : shiftAmount32 s rs = (s.reg rs).toNat % 32 := by
  simp [shiftAmount32, getField]

/-- The amount of a 64-bit variable shift. -/
theorem shiftAmount64_eq (s : State) (rs : RegNum) : shiftAmount64 s rs = (s.reg rs).toNat % 64 := by
  simp [shiftAmount64, getField]

/-- The upper half of a 64-bit product. -/
theorem getField_ofInt_high32 (p : Int) :
    getField (BitVec.ofInt 64 p) 32 32 = BitVec.ofInt 32 (p / 2^32) := by
  apply BitVec.eq_of_toNat_eq
  have h1 : ((BitVec.ofInt 64 p).toNat : Int) = p % 2^64 := by rw [BitVec.toNat_ofInt]; norm_num; omega
  have h2 : ((BitVec.ofInt 32 (p/2^32)).toNat : Int) =
      (p/2^32) % 2^32 := by rw [BitVec.toNat_ofInt]; norm_num; omega
  rw [getField, BitVec.extractLsb'_toNat, Nat.shiftRight_eq_div_pow]
  zify; rw [h1,h2]; norm_num; try omega

/-- The lower half of a 64-bit product. -/
theorem getField_ofInt_low32 (p : Int) : getField (BitVec.ofInt 64 p) 0 32 = BitVec.ofInt 32 p := by
  apply BitVec.eq_of_toNat_eq
  have h1 : ((BitVec.ofInt 64 p).toNat : Int) = p % 2^64 := by rw [BitVec.toNat_ofInt]; norm_num; omega
  have h2 : ((BitVec.ofInt 32 p).toNat : Int) = p % 2^32 := by rw [BitVec.toNat_ofInt]; norm_num; omega
  rw [getField, BitVec.extractLsb'_toNat, Nat.shiftRight_eq_div_pow]
  zify; rw [h1,h2]; norm_num; try omega

/-- The upper half of a 128-bit product. -/
theorem getField_ofInt_high64 (p : Int) :
    getField (BitVec.ofInt 128 p) 64 64 = BitVec.ofInt 64 (p / 2^64) := by
  apply BitVec.eq_of_toNat_eq
  have h1 : ((BitVec.ofInt 128 p).toNat : Int) = p % 2^128 := by rw [BitVec.toNat_ofInt]; norm_num; omega
  have h2 : ((BitVec.ofInt 64 (p/2^64)).toNat : Int) =
      (p/2^64) % 2^64 := by rw [BitVec.toNat_ofInt]; norm_num; omega
  rw [getField, BitVec.extractLsb'_toNat, Nat.shiftRight_eq_div_pow]
  zify; rw [h1,h2]; norm_num; try omega

/-- The lower half of a 128-bit product. -/
theorem getField_ofInt_low64 (p : Int) : getField (BitVec.ofInt 128 p) 0 64 = BitVec.ofInt 64 p := by
  apply BitVec.eq_of_toNat_eq
  have h1 : ((BitVec.ofInt 128 p).toNat : Int) = p % 2^128 := by rw [BitVec.toNat_ofInt]; norm_num; omega
  have h2 : ((BitVec.ofInt 64 p).toNat : Int) = p % 2^64 := by rw [BitVec.toNat_ofInt]; norm_num; omega
  rw [getField, BitVec.extractLsb'_toNat, Nat.shiftRight_eq_div_pow]
  zify; rw [h1,h2]; norm_num; try omega

/-- Truncated quotient and remainder are the division of the spec. -/
theorem isDivision_tdiv (n d : Int) (h : d ≠ 0) : IsDivision n d (n.tdiv d) (n.tmod d) := by
  refine ⟨?_, ?_, ?_, ?_⟩
  · exact (Int.mul_tdiv_add_tmod n d).symm
  · rw [Int.natAbs_tmod]; exact Nat.mod_lt _ (by omega)
  · intro hn; exact Int.tmod_nonneg d hn
  · intro hn
    have := Int.tmod_nonneg (a := -n) d (by omega)
    rw [Int.neg_tmod] at this; omega

-- The ways an instruction ends (10 R84).

/-- Writing a register writes that register, and x[0] not at all. -/
theorem regWritten_setReg (s : State) (rd : RegNum) (v : DWord) : RegWritten s (s.setReg rd v) rd v := by
  intro r
  by_cases h : r = rd
  · subst h
    by_cases h0 : r = 0#5
    · subst h0; simp
    · simp [h0, reg_setReg_same]
  · simp [h, reg_setReg_ne]

/-- An instruction that writes a register and retires. -/
theorem writesReg_retire (s : State) (rd : RegNum) (v w : DWord) (h : v = w) :
    WritesReg (retire (s.setReg rd v)) s rd w := by
  subst h
  refine ⟨_, rfl, ?_, ?_, ?_, ?_, ?_, ?_, ?_⟩
  · intro r; rw [sequence_reg]; exact regWritten_setReg s rd v r
  all_goals simp [SameHiLo, SameTlbLl, SameMemory, SameBus, Advances, Machine.sequence]

/-- An instruction that writes HI and LO and retires. -/
theorem writesHiLo_retire (s : State) (h l h' l' : DWord) (e1 : h = h') (e2 : l = l') :
    WritesHiLo (retire (s.setHiLo h l)) s h' l' := by
  subst e1 e2
  refine ⟨_, rfl, ?_, ?_, ?_, ?_, ?_, ?_, ?_, ?_⟩
  all_goals simp [SameRegs, SameTlbLl, SameMemory, SameBus, Advances, Machine.sequence, State.setHiLo,
      State.reg]
  all_goals rfl

/-- An instruction that only retires. -/
theorem onlyAdvances_retire (s : State) : OnlyAdvances (retire s) s := by
  refine ⟨_, rfl, ?_, ?_, ?_, ?_, ?_, ?_, ?_⟩
  all_goals simp [SameRegs, SameHiLo, SameTlbLl, SameMemory, SameBus, Advances, Machine.sequence]
  intro r; rfl

/-- An instruction that writes CP0 registers and retires. -/
theorem writesCp0_retire (s : State) (c c' : Cp0) (h : c = c') : WritesCp0 (retire (s.setCp0 c)) s c' := by
  subst h
  refine ⟨_, rfl, ?_, ?_, ?_, ?_, ?_, ?_, ?_⟩
  all_goals simp [SameRegs, SameHiLo, SameTlbLl, SameMemory, SameBus, Advances, Machine.sequence]
  · intro r; rfl
  · rfl

/-- An instruction that changes memory and retires. -/
theorem stores_retire (s : State) (t : State) (a n v : Nat) (h : t = { s with mem := t.mem })
    (hb : BytesStored s t a n v) :
    Stores (retire t) s a n v := by
  refine ⟨_, rfl, ?_, ?_, ?_, ?_, ?_, ?_, ?_⟩
  · intro r; rw [sequence_reg, h]; rfl
  · rw [h]; simp [SameHiLo]
  · rw [h]; simp
  · rw [h]; simp [SameTlbLl]
  · constructor
    · intro i hi; rw [sequence_mem]; exact hb.1 i hi
    · intro x hx; rw [sequence_mem]; exact hb.2 x hx
  · rw [h]; simp [SameBus]
  · rw [h]; simp [Advances, Machine.sequence]

/-- A branch or jump without a link. -/
theorem jumps_branch (s : State) (c d : Bool) (t t' : DWord) (h : c = d) (ht : t = t') :
    Jumps (branch c t s) s false d t' := by
  subst h ht
  refine ⟨_, rfl, ?_, ?_, ?_, ?_, ?_, ?_, ?_⟩
  all_goals simp [SameRegs, SameHiLo, SameTlbLl, SameMemory, SameBus, Transfers, Machine.sequence, State.reg]

/-- A likely branch without a link. -/
theorem jumps_branchLikely (s : State) (c d : Bool) (t t' : DWord) (h : c = d) (ht : t = t') :
    Jumps (branchLikely c t s) s true d t' := by
  subst h ht
  refine ⟨_, rfl, ?_, ?_, ?_, ?_, ?_, ?_, ?_⟩
  all_goals simp [SameRegs, SameHiLo, SameTlbLl, SameMemory, SameBus, Transfers, Machine.sequence, State.reg]
  cases c <;> simp

/-- A branch or jump with a link. -/
theorem jumpsLinking_branch (s : State) (l : RegNum) (c d : Bool) (t t' : DWord) (h : c = d) (ht : t = t') :
    JumpsLinking (branch c t (s.setReg l (linkOf s))) s l false d t' := by
  subst h ht
  refine ⟨_, rfl, ?_, ?_, ?_, ?_, ?_, ?_, ?_⟩
  · intro r; rw [sequence_reg]; exact regWritten_setReg s l _ r
  all_goals simp [SameHiLo, SameTlbLl, SameMemory, SameBus, Transfers, Machine.sequence]

/-- A likely branch with a link. -/
theorem jumpsLinking_branchLikely (s : State) (l : RegNum) (c d : Bool) (t t' : DWord) (h : c = d)
    (ht : t = t') :
    JumpsLinking (branchLikely c t (s.setReg l (linkOf s))) s l true d t' := by
  subst h ht
  refine ⟨_, rfl, ?_, ?_, ?_, ?_, ?_, ?_, ?_⟩
  · intro r; rw [sequence_reg]; exact regWritten_setReg s l _ r
  all_goals simp [SameHiLo, SameTlbLl, SameMemory, SameBus, Transfers, Machine.sequence]
  cases c <;> simp

/-- The target of J and JAL as a number. -/
theorem jumpTargetOf_eq (s : State) (index : BitVec 26) :
    jumpTargetOf s index = BitVec.ofNat 64 (s.pc.toNat / 2 ^ 28 * 2 ^ 28 + index.toNat * 4) := by
  have h1 : (s.pc &&& ~~~0x000000000FFFFFFF#64) = (s.pc >>> 28) <<< 28 := by
    apply BitVec.eq_of_getLsbD_eq
    intro i hi
    interval_cases i <;> simp
  apply BitVec.eq_of_toNat_eq
  unfold jumpTargetOf
  rw [h1, BitVec.toNat_or, BitVec.toNat_shiftLeft, BitVec.toNat_ushiftRight, Nat.shiftLeft_eq,
      Nat.shiftRight_eq_div_pow]
  have hp := s.pc.isLt
  have hi := index.isLt
  have h2 : s.pc.toNat / 2^28 * 2^28 % 2^64 = s.pc.toNat / 2^28 * 2^28 := by omega
  have h3 : (zext (index ++ 0#2 : BitVec 28)).toNat = index.toNat * 4 := by
    unfold zext
    rw [BitVec.toNat_setWidth, BitVec.toNat_append]
    simp [Nat.shiftLeft_eq]; omega
  rw [h2, h3, ← Nat.shiftLeft_eq, ← Nat.shiftLeft_add_eq_or_of_lt (by omega), Nat.shiftLeft_eq,
      BitVec.toNat_ofNat]
  omega

/-- The target of a branch as a number. -/
theorem branchTargetOf_eq (s : State) (offset : BitVec 16) :
    branchTargetOf s offset = s.pc + 4#64 + word64 (offset.toInt * 4) := by
  unfold branchTargetOf
  congr 1
  unfold boff sext word64
  apply BitVec.eq_of_toInt_eq
  rw [BitVec.toInt_signExtend_of_le (by omega), BitVec.toInt_ofInt]
  have h := offset.isLt
  have e1 : (offset ++ 0#2 : BitVec 18).toNat = offset.toNat * 4 := by
    rw [BitVec.toNat_append]; simp [Nat.shiftLeft_eq]
  rw [BitVec.toInt_eq_toNat_cond, BitVec.toInt_eq_toNat_cond, e1]
  rw [Int.bmod_def]
  split <;> split <;> split <;> push_cast <;> omega

/-- In kernel mode a 64-bit operation runs. -/
theorem require64_of_kernelMode (s : State) (h : s.cp0.kernelMode = true) (r : Result) :
    require64 s r = r := by
  simp [require64, Cp0.enabled64, h]

/-- CP0 is usable in kernel mode or with CU0. -/
theorem usable_of_or (s : State) (h : s.cp0.kernelMode = true ∨ s.cp0.cu0 = true) : s.cp0.usable = true := by
  unfold Cp0.usable; rcases h with h | h <;> simp [h]

/-- Where CP0 is usable a CP0 instruction runs. -/
theorem requireCp0_of_or (s : State) (h : s.cp0.kernelMode = true ∨ s.cp0.cu0 = true) (r : Result) :
    requireCp0 s r = r := by
  simp [requireCp0, usable_of_or s h]

-- Wide values in memory (20 R101, R120, R121).

/-- The bytes of an access that does not wrap lie one after another. -/
theorem byteAddr_of_le (pa : PAddr) (i n : Nat) (h : pa.toNat + n ≤ 2^36) (hi : i < n) :
    byteAddr pa i = pa.toNat + i := by
  unfold byteAddr
  rw [BitVec.toNat_add, BitVec.toNat_ofNat]
  omega

/-- A wide read is the big-endian value of the bytes. -/
theorem toNat_readBytes (m : Memory) (pa : PAddr) (n : Nat) (hn : n ≤ 8) (h : pa.toNat + n ≤ 2^36) :
    (readBytes m pa n).toNat = bigEndian m pa.toNat n ∧ bigEndian m pa.toNat n < 256 ^ n := by
  induction n with
  | zero => exact ⟨rfl, by simp [bigEndian]⟩
  | succ n ih =>
    obtain ⟨ih, ihl⟩ := ih (by omega) (by omega)
    have hb := (Memory.read m (pa.toNat + n)).isLt
    have hlt : bigEndian m pa.toNat n * 256 + 255 < 256 ^ (n+1) := by rw [Nat.pow_succ]; omega
    have h64 : 256 ^ (n+1) ≤ 2^64 := by
      have : 256 ^ (n+1) ≤ 256 ^ 8 := Nat.pow_le_pow_right (by omega) (by omega)
      norm_num at this ⊢; omega
    unfold readBytes bigEndian
    rw [byteAddr_of_le pa n (n+1) h (by omega)]
    refine ⟨?_, by omega⟩
    rw [BitVec.toNat_or, BitVec.toNat_shiftLeft, ih]
    have hz : (zext (Memory.read m (pa.toNat + n))).toNat = (Memory.read m (pa.toNat + n)).toNat := by
      unfold zext; rw [BitVec.toNat_setWidth]; exact Nat.mod_eq_of_lt (by omega)
    have hm8 : bigEndian m pa.toNat n * 2 ^ 8 < 2 ^ 64 := by
      have : (2:Nat)^8 = 256 := rfl
      rw [this]; exact Nat.lt_of_lt_of_le (Nat.lt_of_le_of_lt (Nat.le_add_right _ 255) hlt) h64
    rw [hz, Nat.shiftLeft_eq, Nat.mod_eq_of_lt hm8, ← Nat.shiftLeft_eq,
        ← Nat.shiftLeft_add_eq_or_of_lt (by omega), Nat.shiftLeft_eq]

/-- An aligned access ends inside the physical space. -/
theorem aligned_le (pa : PAddr) (w : Width) (h : pa.toNat % widthBytes w = 0) :
    pa.toNat + widthBytes w ≤ 2^36 := by
  have := pa.isLt
  cases w <;> simp only [widthBytes] at h ⊢ <;> omega

/-- No access is wider than eight bytes. -/
theorem widthBytes_le (w : Width) : widthBytes w ≤ 8 := by cases w <;> decide

/-- A read of `w` has no bits above `w`. -/
theorem truncateTo_readBytes (m : Memory) (pa : PAddr) (w : Width) (h : pa.toNat % widthBytes w = 0) :
    (truncateTo w (readBytes m pa (widthBytes w))).toNat = bigEndian m pa.toNat (widthBytes w) := by
  obtain ⟨h1, h2⟩ := toNat_readBytes m pa _ (widthBytes_le w) (aligned_le pa w h)
  cases w <;> simp only [truncateTo, widthBytes] at h1 h2 ⊢
  all_goals first | exact h1 | skip
  all_goals
    unfold zext getField
    rw [BitVec.toNat_setWidth, BitVec.extractLsb'_toNat, h1]
    simp only [Nat.shiftRight_zero]
    norm_num at h2
    omega

/-- The bytes that a store of `w` takes from a register. -/
theorem truncateTo_byte (w : Width) (v : DWord) (i : Nat) (hi : i < widthBytes w) :
    (truncateTo w v).toNat / 256^i % 256 = v.toNat / 256^i % 256 := by
  have hv := v.isLt
  cases w <;> simp only [widthBytes] at hi <;> interval_cases i
  all_goals
    try rfl
  all_goals
    simp only [truncateTo, zext, getField]
    rw [BitVec.toNat_setWidth, BitVec.extractLsb'_toNat]
    simp only [Nat.shiftRight_zero]
    omega

/-- A wide write stores the bytes of its value and no other. -/
theorem bytesStored_writeBytes (s t : State) (pa : PAddr) (n : Nat) (v : DWord) (hn : n ≤ 8)
    (h : pa.toNat + n ≤ 2^36) (hw : Memory.wf s.mem = true)
  (ht : t.mem = writeBytes s.mem pa n v) (V : Nat) (hV : ∀ i,
      i < n → v.toNat / 256^i % 256 = V / 256^i % 256) : BytesStored s t pa.toNat n V := by
  constructor
  · intro i hi
    rw [ht, ← byteAddr_of_le pa i n h hi, read_writeBytes_inside _ _ _ _ _ hi hn hw, getField,
        BitVec.extractLsb'_toNat,
      Nat.shiftRight_eq_div_pow, Nat.pow_mul]
    exact hV _ (by omega)
  · intro x hx
    rw [ht]
    apply read_writeBytes_outside
    intro i hi
    rw [byteAddr_of_le pa i n h hi]
    omega

/-- A big-endian value in two parts. -/
theorem bigEndian_add (m : Memory) (a i j : Nat) :
    bigEndian m a (i + j) = bigEndian m a i * 256 ^ j + bigEndian m (a+i) j := by
  induction j with
  | zero => simp [bigEndian]
  | succ j ih =>
    rw [← Nat.add_assoc, bigEndian, bigEndian, ih, Nat.pow_succ, Nat.add_assoc a i j]; ring

/-- A big-endian value of `n` bytes is below `256^n`. -/
theorem bigEndian_lt (m : Memory) (a n : Nat) : bigEndian m a n < 256 ^ n := by
  induction n with
  | zero => simp [bigEndian]
  | succ n ih =>
    have := (Memory.read m (a+n)).isLt
    rw [bigEndian, Nat.pow_succ]; omega

/-- Clearing the low bits of a bit vector. -/
theorem and_not_ushiftRight {n : Nat} (r : BitVec n) (k : Nat) (hk : k ≤ n) :
    r &&& ~~~(BitVec.allOnes n >>> k) = (r >>> (n - k)) <<< (n - k) := by
  apply BitVec.eq_of_getLsbD_eq
  intro i hi
  rw [BitVec.getLsbD_and, BitVec.getLsbD_not, BitVec.getLsbD_ushiftRight, BitVec.getLsbD_allOnes,
    BitVec.getLsbD_shiftLeft, BitVec.getLsbD_ushiftRight]
  by_cases h : i < n - k
  · have h1 : k + i < n := by omega
    simp [hi, h, h1]
  · have h1 : ¬k + i < n := by omega
    have h2 : n - k + (i - (n - k)) = i := by omega
    simp only [hi, h, h1, h2, decide_true, decide_false, Bool.not_false, Bool.true_and, Bool.and_true]

/-- The address of the unit that holds an address. -/
theorem toNat_unitAddr (pa : PAddr) (w : Width) :
    (unitAddr pa w).toNat = pa.toNat / widthBytes w * widthBytes w := by
  have key : ∀ k, k ≤ 3 → (pa &&& ~~~(BitVec.ofNat 36 (2^k - 1))) = (pa >>> k) <<< k := by
    intro k hk
    have e : BitVec.ofNat 36 (2 ^ k - 1) = BitVec.allOnes 36 >>> (36 - k) := by interval_cases k <;> rfl
    have e2 : 36 - (36 - k) = k := by omega
    rw [e, and_not_ushiftRight pa (36 - k) (by omega), e2]
  have h2 : ∀ k, k ≤ 3 → ((pa >>> k) <<< k).toNat = pa.toNat / 2^k * 2^k := by
    intro k hk
    have := pa.isLt
    rw [BitVec.toNat_shiftLeft, BitVec.toNat_ushiftRight, Nat.shiftLeft_eq, Nat.shiftRight_eq_div_pow]
    interval_cases k <;> omega
  have e : ∃ k, k ≤ 3 ∧ widthBytes w = 2^k := by
    cases w
    · exact ⟨0, by decide, rfl⟩
    · exact ⟨1, by decide, rfl⟩
    · exact ⟨2, by decide, rfl⟩
    · exact ⟨3, by decide, rfl⟩
  obtain ⟨k, hk, hw⟩ := e
  unfold unitAddr
  rw [hw, key k hk, h2 k hk]

/-- The address of the unit that holds an address, as a bit vector. -/
theorem unitAddr_eq_ofNat (pa : PAddr) (w : Width) :
    unitAddr pa w = BitVec.ofNat 36 (pa.toNat / widthBytes w * widthBytes w) := by
  apply BitVec.eq_of_toNat_eq
  rw [toNat_unitAddr, BitVec.toNat_ofNat, Nat.mod_eq_of_lt]
  have := pa.isLt
  exact Nat.lt_of_le_of_lt (Nat.div_mul_le_self _ _) this

-- The merges of the unaligned loads (43 R319 to R322).

/-- LWL as a number. -/
theorem toNat_mergeLeft32 (b : Nat) (hb : b < 4) (m r : Word) :
    (mergeLeft32 b m r).toNat = m.toNat % 256^(4-b) * 256^b + r.toNat % 256^b := by
  have hm := m.isLt; have hr := r.isLt
  have h1 : (m <<< (8*b)).toNat = m.toNat % 256^(4-b) * 256^b := by
    rw [BitVec.toNat_shiftLeft, Nat.shiftLeft_eq]
    interval_cases b <;> norm_num <;> omega
  have h2 : (r &&& BitVec.ofNat 32 (2 ^ (8 * b) - 1)).toNat = r.toNat % 256^b := by
    rw [BitVec.toNat_and, BitVec.toNat_ofNat]
    have : (2 ^ (8*b) - 1) % 2^32 = 2^(8*b) - 1 := by interval_cases b <;> rfl
    rw [this, Nat.and_two_pow_sub_one_eq_mod, Nat.pow_mul]
  unfold mergeLeft32
  rw [BitVec.toNat_or, h1, h2]
  have e : (256:Nat)^b = 2^(8*b) := by rw [Nat.pow_mul]
  rw [e, ← Nat.shiftLeft_eq, ← Nat.shiftLeft_add_eq_or_of_lt (Nat.mod_lt _ (Nat.two_pow_pos _))]

/-- LWR as a number. -/
theorem toNat_mergeRight32 (b : Nat) (hb : b < 4) (m r : Word) :
    (mergeRight32 b m r).toNat = r.toNat / 256^(b+1) * 256^(b+1) + m.toNat / 256^(3-b) := by
  have hm := m.isLt; have hr := r.isLt
  have h1 : (m >>> (8*(3-b))).toNat = m.toNat / 256^(3-b) := by
    rw [BitVec.toNat_ushiftRight, Nat.shiftRight_eq_div_pow, Nat.pow_mul]
  have h2 : (r &&& ~~~(0xFFFFFFFF#32 >>> (8 * (3 - b)))) = (r >>> (8*(b+1))) <<< (8*(b+1)) := by
    have e : 32 - 8 * (3 - b) = 8 * (b + 1) := by omega
    rw [← e]
    exact and_not_ushiftRight r (8 * (3 - b)) (by omega)
  have h3 : ((r >>> (8*(b+1))) <<< (8*(b+1))).toNat = r.toNat / 256^(b+1) * 256^(b+1) := by
    rw [BitVec.toNat_shiftLeft, Nat.shiftLeft_eq, BitVec.toNat_ushiftRight, Nat.shiftRight_eq_div_pow]
    interval_cases b <;> norm_num <;> omega
  unfold mergeRight32
  rw [BitVec.toNat_or, h1, h2, h3, Nat.or_comm]
  have e : (256:Nat)^(b+1) = 2^(8*(b+1)) := by rw [Nat.pow_mul]
  have hl : m.toNat / 256^(3-b) < 2^(8*(b+1)) := by interval_cases b <;> norm_num <;> omega
  rw [e, ← Nat.shiftLeft_eq, ← Nat.shiftLeft_add_eq_or_of_lt hl]

/-- LDL as a number. -/
theorem toNat_mergeLeft64 (b : Nat) (hb : b < 8) (m r : DWord) :
    (mergeLeft64 b m r).toNat = m.toNat % 256^(8-b) * 256^b + r.toNat % 256^b := by
  have hm := m.isLt; have hr := r.isLt
  have h1 : (m <<< (8*b)).toNat = m.toNat % 256^(8-b) * 256^b := by
    rw [BitVec.toNat_shiftLeft, Nat.shiftLeft_eq]
    interval_cases b <;> norm_num <;> omega
  have h2 : (r &&& BitVec.ofNat 64 (2 ^ (8 * b) - 1)).toNat = r.toNat % 256^b := by
    rw [BitVec.toNat_and, BitVec.toNat_ofNat]
    have : (2 ^ (8*b) - 1) % 2^64 = 2^(8*b) - 1 := by interval_cases b <;> rfl
    rw [this, Nat.and_two_pow_sub_one_eq_mod, Nat.pow_mul]
  unfold mergeLeft64
  rw [BitVec.toNat_or, h1, h2]
  have e : (256:Nat)^b = 2^(8*b) := by rw [Nat.pow_mul]
  rw [e, ← Nat.shiftLeft_eq, ← Nat.shiftLeft_add_eq_or_of_lt (Nat.mod_lt _ (Nat.two_pow_pos _))]

/-- LDR as a number. -/
theorem toNat_mergeRight64 (b : Nat) (hb : b < 8) (m r : DWord) :
    (mergeRight64 b m r).toNat = r.toNat / 256^(b+1) * 256^(b+1) + m.toNat / 256^(7-b) := by
  have hm := m.isLt; have hr := r.isLt
  have h1 : (m >>> (8*(7-b))).toNat = m.toNat / 256^(7-b) := by
    rw [BitVec.toNat_ushiftRight, Nat.shiftRight_eq_div_pow, Nat.pow_mul]
  have h2 : (r &&& ~~~(0xFFFFFFFFFFFFFFFF#64 >>> (8 * (7 - b)))) = (r >>> (8*(b+1))) <<< (8*(b+1)) := by
    have e : 64 - 8 * (7 - b) = 8 * (b + 1) := by omega
    rw [← e]
    exact and_not_ushiftRight r (8 * (7 - b)) (by omega)
  have h3 : ((r >>> (8*(b+1))) <<< (8*(b+1))).toNat = r.toNat / 256^(b+1) * 256^(b+1) := by
    rw [BitVec.toNat_shiftLeft, Nat.shiftLeft_eq, BitVec.toNat_ushiftRight, Nat.shiftRight_eq_div_pow]
    interval_cases b <;> norm_num <;> omega
  unfold mergeRight64
  rw [BitVec.toNat_or, h1, h2, h3, Nat.or_comm]
  have e : (256:Nat)^(b+1) = 2^(8*(b+1)) := by rw [Nat.pow_mul]
  have hl : m.toNat / 256^(7-b) < 2^(8*(b+1)) := by interval_cases b <;> norm_num <;> omega
  rw [e, ← Nat.shiftLeft_eq, ← Nat.shiftLeft_add_eq_or_of_lt hl]

-- CP0 registers and TLB entries (10 R42 to R70).

/-- The slot number in Index, Random and Wired. -/
theorem toNat_lowField6 (x : Word) : (getField x 0 6).toNat = x.toNat % 64 := by
  rw [getField, BitVec.extractLsb'_toNat, Nat.shiftRight_zero]

/-- EntryLo of a half entry as a number. -/
theorem entryLoOf_eq (h : TlbHalf) (g : Bool) :
    entryLoOf h g = BitVec.ofNat 64 (h.pfn.toNat * 64 + h.c.toNat * 8 + h.d.toNat * 4 + h.v.toNat * 2 + g.toNat) := by
  have hp := h.pfn.isLt
  have hc := h.c.isLt
  have e : BitVec.ofNat 64 (h.pfn.toNat * 64 + h.c.toNat * 8 + h.d.toNat * 4 + h.v.toNat * 2 + g.toNat) =
      ((h.pfn ++ h.c ++ BitVec.ofBool h.d ++ BitVec.ofBool h.v ++ BitVec.ofBool g).setWidth 64) := by
    apply BitVec.eq_of_toNat_eq
    rw [BitVec.toNat_setWidth, BitVec.toNat_append, BitVec.toNat_append, BitVec.toNat_append,
        BitVec.toNat_append]
    rw [← Nat.shiftLeft_add_eq_or_of_lt (BitVec.isLt _), ← Nat.shiftLeft_add_eq_or_of_lt (BitVec.isLt _),
        ← Nat.shiftLeft_add_eq_or_of_lt (BitVec.isLt _), ← Nat.shiftLeft_add_eq_or_of_lt (BitVec.isLt _)]
    simp only [Nat.shiftLeft_eq, BitVec.toNat_ofNat, BitVec.toNat_ofBool]
    norm_num
    congr 1; ring
  rw [e]
  unfold entryLoOf bit
  apply BitVec.eq_of_getLsbD_eq
  intro i hi
  rw [getLsbD_setField, getLsbD_setField, getLsbD_setField, getLsbD_setField, getLsbD_setField]
  rw [BitVec.getLsbD_setWidth, BitVec.getLsbD_append, BitVec.getLsbD_append, BitVec.getLsbD_append,
      BitVec.getLsbD_append]
  interval_cases i <;> simp

/-- EntryHi of an entry as a number. -/
theorem entryHiOf_eq (r : BitVec 2) (v : BitVec 27) (a : BitVec 8) :
    entryHiOf r v a = BitVec.ofNat 64 (r.toNat * 2 ^ 62 + v.toNat * 2 ^ 13 + a.toNat) := by
  have hr := r.isLt; have hv := v.isLt; have ha := a.isLt
  have e : BitVec.ofNat 64 (r.toNat * 2 ^ 62 + v.toNat * 2 ^ 13 + a.toNat) =
      (r ++ 0#22 ++ v ++ 0#5 ++ a : BitVec 64) := by
    apply BitVec.eq_of_toNat_eq
    rw [BitVec.toNat_append, BitVec.toNat_append, BitVec.toNat_append, BitVec.toNat_append]
    rw [← Nat.shiftLeft_add_eq_or_of_lt (BitVec.isLt _), ← Nat.shiftLeft_add_eq_or_of_lt (BitVec.isLt _),
        ← Nat.shiftLeft_add_eq_or_of_lt (BitVec.isLt _), ← Nat.shiftLeft_add_eq_or_of_lt (BitVec.isLt _)]
    simp only [Nat.shiftLeft_eq, BitVec.toNat_ofNat]
    omega
  rw [e]
  unfold entryHiOf
  apply BitVec.eq_of_getLsbD_eq
  intro i hi
  rw [getLsbD_setField, getLsbD_setField, getLsbD_setField]
  rw [BitVec.getLsbD_append, BitVec.getLsbD_append, BitVec.getLsbD_append, BitVec.getLsbD_append]
  interval_cases i <;> simp

/-- PageMask of a mask given as a number. -/
theorem pageMaskOf_ofNat (l : Nat) (hl : l < 2^12) :
    pageMaskOf (BitVec.ofNat 12 l) = BitVec.ofNat 32 (l * 2^13) := by
  unfold pageMaskOf
  apply BitVec.eq_of_getLsbD_eq
  intro i hi
  rw [getLsbD_setField, BitVec.getLsbD_ofNat, BitVec.getLsbD_ofNat,
      BitVec.getLsbD_ofNat (n := 32) (x := l * 2^13), Nat.testBit_mul_two_pow]
  by_cases h1 : 13 ≤ i
  · by_cases h2 : i < 25
    · simp [hi, h1, h2]; omega
    · have : l.testBit (i-13) =
        false := Nat.testBit_lt_two_pow (Nat.lt_of_lt_of_le hl (Nat.pow_le_pow_right (by omega) (by omega)))
      simp [hi, h1, h2, this]
  · simp [hi, h1]

/-- PageMask of a mask as a number. -/
theorem pageMaskOf_eq (m : BitVec 12) : pageMaskOf m = BitVec.ofNat 32 (m.toNat * 2^13) := by
  rw [← pageMaskOf_ofNat _ m.isLt, BitVec.ofNat_toNat, BitVec.setWidth_eq]

/-- Clearing EXL. -/
theorem setField_exl_false (x : Word) : setField x 1 (bit false) = x &&& 0xFFFFFFFD#32 := by
  apply BitVec.eq_of_getLsbD_eq; intro i hi
  rw [getLsbD_setField]; unfold bit; interval_cases i <;> simp

/-- KSU as a number. -/
theorem ksu_eq_iff (c : Cp0) (k : Nat) (hk : k < 4) :
    c.ksu = BitVec.ofNat 2 k ↔ c.status.toNat / 8 % 4 = k := by
  unfold Cp0.ksu
  rw [getField_eq_ofNat]
  constructor
  · intro h
    have := congrArg BitVec.toNat h
    simpa [Nat.mod_eq_of_lt hk] using this
  · intro h
    apply BitVec.eq_of_toNat_eq
    simp; omega

/-- A TLB entry matches, bit by bit. -/
theorem matchesPage_iff (e : TlbEntry) (r : BitVec 2) (v : BitVec 27) (a : BitVec 8) :
   e.matchesPage r v a = true ↔ (e.present = true ∧ e.r = r ∧ (∀ i,
       i < 27 → e.mask.getLsbD i = false → e.vpn2.getLsbD i = v.getLsbD i) ∧ (e.g = true ∨ e.asid = a)) := by
  unfold TlbEntry.matchesPage
  have key : (e.vpn2 &&& ~~~(e.mask.setWidth 27)) = (v &&& ~~~(e.mask.setWidth 27)) ↔ (∀ i,
      i < 27 → e.mask.getLsbD i = false → e.vpn2.getLsbD i = v.getLsbD i) := by
    constructor
    · intro h i hi hm
      have := congrArg (fun x => x.getLsbD i) h
      simpa [hi, hm] using this
    · intro h
      apply BitVec.eq_of_getLsbD_eq
      intro i hi
      have := h i hi
      cases hm : e.mask.getLsbD i <;> simp [hi, hm]
      exact this hm
  simp only [Bool.and_eq_true, Bool.or_eq_true, beq_iff_eq]
  rw [key]; tauto

/-- A canonical address is the sign extension of its low word. -/
theorem canonical_iff (va : DWord) : canonical va = true ↔ va = word32 (va.toNat % 2^32 : Nat) := by
  have : sext (lowWord va) = word32 (va.toNat % 2^32 : Nat) := by
    apply sext_eq_word32
    apply BitVec.eq_of_toNat_eq
    simp [lowWord]; omega
  unfold canonical
  rw [this]; simp

-- Fetching (20 R122).

/-- Where pc is in plain memory, fetch and decode give what the big-endian word there decodes to. -/
theorem fetchDecode_of_fetchesFrom (s : State) (pa : PAddr) (hf : FetchesFrom s pa) :
    fetchDecode s = match decodeWord (BitVec.ofNat 32 (bigEndian s.mem pa.toNat 4)) with
     | .ok i => .instr i s
     | .error e => .raised (decodeExn s.cp0 e) s := by
  obtain ⟨ht, hm⟩ := hf
  have hal := translateAligned_aligned ht
  unfold fetchDecode
  rw [fetch_memory _ _ _ ht hm]
  simp only
  have h1 : lowWord (truncateTo .word (readBytes s.mem pa 4)) =
      BitVec.ofNat 32 (bigEndian s.mem pa.toNat 4) := by
    rw [lowWord_eq_ofNat, show (4:Nat) = widthBytes .word from rfl, truncateTo_readBytes _ _ _ hal]
  rw [h1]
  rw [← List.append_nil (bytesOfWord _), decodeBytes_bytesOfWord]
  cases decodeWord (BitVec.ofNat 32 (bigEndian s.mem pa.toNat 4)) <;> rfl

end Sys2Proof.Machine
end

