-- ==== Sys2Proof/Tests/Slice0.lean ====
section
/-! SUPPORT. Tests: the checks of WellFormed on ill-formed terms, the decoding of a word of every
instruction, single steps from the vectors of 95_test_vectors.md, and for each statement with hypotheses
states and operands that meet them. -/

namespace Sys2Proof.Tests

open Sys2Proof Sys2Proof.Machine Sys2Proof.Safety

-- The checks of WellFormed.

/-- TLB_SIZE must be from 1 to 64 (00 R6). -/
theorem test_tlb_size_checked : paramsWellFormed 0 1#32 = false ∧ paramsWellFormed 65 1#32 = false ∧
    paramsWellFormed 1 1#32 = true ∧ paramsWellFormed 64 1#32 = true := by decide

/-- COUNT_INCREMENT must not be 0 (00 R6). -/
theorem test_count_increment_checked :
    paramsWellFormed 64 0#32 = false ∧ paramsWellFormed 64 0xFFFFFFFF#32 = true := by decide

/-- A region must not be empty. -/
theorem test_empty_region_refused : Region.wellFormed ⟨0, 0, .memory⟩ = false := by decide

/-- A region must lie in the physical space. -/
theorem test_long_region_refused :
    Region.wellFormed ⟨8, 2 ^ 36, .memory⟩ = false ∧ Region.wellFormed ⟨0, 2 ^ 36, .memory⟩ = true := by decide

/-- A region's base and size must be multiples of 8. -/
theorem test_misaligned_region_refused :
    Region.wellFormed ⟨4, 8, .memory⟩ = false ∧ Region.wellFormed ⟨8, 4, .memory⟩ = false := by decide

/-- One ill-formed region makes a map ill-formed. -/
theorem test_bus_checked : busWellFormed [⟨0, 8, .memory⟩, ⟨8, 0, .unmapped⟩] = false := by decide

/-- Every instruction is well formed, whatever its fields (30 R153). -/
theorem test_instr_well_formed : (Instr.cache 31 31 0xFFFF).wellFormed = true := by decide

-- Decoding: words put together by hand from the table's match values and the field positions.

/-- Words of the instructions of 40_alu.md, from the rows of the opcode table and 30 R151. -/
theorem test_decode_alu_1 :
    ∀ p ∈ ([
      (0x02AA9820#32, .add 0x15 0xA 0x13), (0x02AA9821#32, .addu 0x15 0xA 0x13),
      (0x02AA9822#32, .sub 0x15 0xA 0x13), (0x02AA9823#32, .subu 0x15 0xA 0x13),
      (0x02AA982C#32, .dadd 0x15 0xA 0x13), (0x02AA982D#32, .daddu 0x15 0xA 0x13),
      (0x02AA982E#32, .dsub 0x15 0xA 0x13), (0x02AA982F#32, .dsubu 0x15 0xA 0x13),
      (0x22AA8001#32, .addi 0x15 0xA 0x8001), (0x26AA8001#32, .addiu 0x15 0xA 0x8001),
      (0x62AA8001#32, .daddi 0x15 0xA 0x8001), (0x66AA8001#32, .daddiu 0x15 0xA 0x8001),
      (0x02AA982A#32, .slt 0x15 0xA 0x13), (0x02AA982B#32, .sltu 0x15 0xA 0x13)] : List (Word × Instr)),
      decodeWord p.1 = .ok p.2 ∧ encode p.2 = p.1 := by decide

/-- Words of the instructions of 40_alu.md, from the rows of the opcode table and 30 R151. -/
theorem test_decode_alu_2 :
    ∀ p ∈ ([
      (0x2AAA8001#32, .slti 0x15 0xA 0x8001), (0x2EAA8001#32, .sltiu 0x15 0xA 0x8001),
      (0x02AA9824#32, .and 0x15 0xA 0x13), (0x02AA9825#32, .or 0x15 0xA 0x13),
      (0x02AA9826#32, .xor 0x15 0xA 0x13), (0x02AA9827#32, .nor 0x15 0xA 0x13),
      (0x32AA8001#32, .andi 0x15 0xA 0x8001), (0x36AA8001#32, .ori 0x15 0xA 0x8001),
      (0x3AAA8001#32, .xori 0x15 0xA 0x8001), (0x3C0A8001#32, .lui 0xA 0x8001),
      (0x000A9F40#32, .sll 0xA 0x13 0x1D), (0x000A9F42#32, .srl 0xA 0x13 0x1D),
      (0x000A9F43#32, .sra 0xA 0x13 0x1D), (0x02AA9804#32, .sllv 0x15 0xA 0x13)] : List (Word × Instr)),
      decodeWord p.1 = .ok p.2 ∧ encode p.2 = p.1 := by decide

/-- Words of the instructions of 40_alu.md, from the rows of the opcode table and 30 R151. -/
theorem test_decode_alu_3 :
    ∀ p ∈ ([
      (0x02AA9806#32, .srlv 0x15 0xA 0x13), (0x02AA9807#32, .srav 0x15 0xA 0x13),
      (0x000A9F78#32, .dsll 0xA 0x13 0x1D), (0x000A9F7A#32, .dsrl 0xA 0x13 0x1D),
      (0x000A9F7B#32, .dsra 0xA 0x13 0x1D), (0x000A9F7C#32, .dsll32 0xA 0x13 0x1D),
      (0x000A9F7E#32, .dsrl32 0xA 0x13 0x1D), (0x000A9F7F#32, .dsra32 0xA 0x13 0x1D),
      (0x02AA9814#32, .dsllv 0x15 0xA 0x13), (0x02AA9816#32, .dsrlv 0x15 0xA 0x13),
      (0x02AA9817#32, .dsrav 0x15 0xA 0x13)] : List (Word × Instr)),
      decodeWord p.1 = .ok p.2 ∧ encode p.2 = p.1 := by decide

/-- Words of the instructions of 41_muldiv.md, from the rows of the opcode table and 30 R151. -/
theorem test_decode_muldiv :
    ∀ p ∈ ([
      (0x00009810#32, .mfhi 0x13), (0x00009812#32, .mflo 0x13), (0x02A00011#32, .mthi 0x15),
      (0x02A00013#32, .mtlo 0x15), (0x02AA0018#32, .mult 0x15 0xA), (0x02AA0019#32, .multu 0x15 0xA),
      (0x02AA001A#32, .div 0x15 0xA), (0x02AA001B#32, .divu 0x15 0xA), (0x02AA001C#32, .dmult 0x15 0xA),
      (0x02AA001D#32, .dmultu 0x15 0xA), (0x02AA001E#32, .ddiv 0x15 0xA),
      (0x02AA001F#32, .ddivu 0x15 0xA)] : List (Word × Instr)),
      decodeWord p.1 = .ok p.2 ∧ encode p.2 = p.1 := by decide

/-- Words of the instructions of 42_branch.md, from the rows of the opcode table and 30 R151. -/
theorem test_decode_branch_1 :
    ∀ p ∈ ([
      (0x0A000001#32, .j 0x2000001), (0x0E000001#32, .jal 0x2000001), (0x02A00008#32, .jr 0x15),
      (0x02A09809#32, .jalr 0x15 0x13), (0x12AA8001#32, .beq 0x15 0xA 0x8001),
      (0x16AA8001#32, .bne 0x15 0xA 0x8001), (0x1AA08001#32, .blez 0x15 0x8001),
      (0x1EA08001#32, .bgtz 0x15 0x8001), (0x06A08001#32, .bltz 0x15 0x8001),
      (0x06A18001#32, .bgez 0x15 0x8001), (0x06B08001#32, .bltzal 0x15 0x8001),
      (0x06B18001#32, .bgezal 0x15 0x8001), (0x52AA8001#32, .beql 0x15 0xA 0x8001),
      (0x56AA8001#32, .bnel 0x15 0xA 0x8001)] : List (Word × Instr)),
      decodeWord p.1 = .ok p.2 ∧ encode p.2 = p.1 := by decide

/-- Words of the instructions of 42_branch.md, from the rows of the opcode table and 30 R151. -/
theorem test_decode_branch_2 :
    ∀ p ∈ ([
      (0x5AA08001#32, .blezl 0x15 0x8001), (0x5EA08001#32, .bgtzl 0x15 0x8001),
      (0x06A28001#32, .bltzl 0x15 0x8001), (0x06A38001#32, .bgezl 0x15 0x8001),
      (0x06B28001#32, .bltzall 0x15 0x8001), (0x06B38001#32, .bgezall 0x15 0x8001)] : List (Word × Instr)),
      decodeWord p.1 = .ok p.2 ∧ encode p.2 = p.1 := by decide

/-- Words of the instructions of 43_loadstore.md, from the rows of the opcode table and 30 R151. -/
theorem test_decode_loadstore_1 :
    ∀ p ∈ ([
      (0x82AA8001#32, .lb 0x15 0xA 0x8001), (0x92AA8001#32, .lbu 0x15 0xA 0x8001),
      (0x86AA8001#32, .lh 0x15 0xA 0x8001), (0x96AA8001#32, .lhu 0x15 0xA 0x8001),
      (0x8EAA8001#32, .lw 0x15 0xA 0x8001), (0x9EAA8001#32, .lwu 0x15 0xA 0x8001),
      (0xDEAA8001#32, .ld 0x15 0xA 0x8001), (0x8AAA8001#32, .lwl 0x15 0xA 0x8001),
      (0x9AAA8001#32, .lwr 0x15 0xA 0x8001), (0x6AAA8001#32, .ldl 0x15 0xA 0x8001),
      (0x6EAA8001#32, .ldr 0x15 0xA 0x8001), (0xA2AA8001#32, .sb 0x15 0xA 0x8001),
      (0xA6AA8001#32, .sh 0x15 0xA 0x8001), (0xAEAA8001#32, .sw 0x15 0xA 0x8001)] : List (Word × Instr)),
      decodeWord p.1 = .ok p.2 ∧ encode p.2 = p.1 := by decide

/-- Words of the instructions of 43_loadstore.md, from the rows of the opcode table and 30 R151. -/
theorem test_decode_loadstore_2 :
    ∀ p ∈ ([
      (0xFEAA8001#32, .sd 0x15 0xA 0x8001), (0xAAAA8001#32, .swl 0x15 0xA 0x8001),
      (0xBAAA8001#32, .swr 0x15 0xA 0x8001), (0xB2AA8001#32, .sdl 0x15 0xA 0x8001),
      (0xB6AA8001#32, .sdr 0x15 0xA 0x8001), (0xC2AA8001#32, .ll 0x15 0xA 0x8001),
      (0xD2AA8001#32, .lld 0x15 0xA 0x8001), (0xE2AA8001#32, .sc 0x15 0xA 0x8001),
      (0xF2AA8001#32, .scd 0x15 0xA 0x8001), (0x0000044F#32, .sync 0x11),
      (0xBEAD8001#32, .cache 0x15 0xD 0x8001)] : List (Word × Instr)),
      decodeWord p.1 = .ok p.2 ∧ encode p.2 = p.1 := by decide

/-- Words of the instructions of 44_system.md, from the rows of the opcode table and 30 R151. -/
theorem test_decode_system_1 :
    ∀ p ∈ ([
      (0x0200004C#32, .syscall 0x80001), (0x0200004D#32, .breakpoint 0x80001),
      (0x02AA8070#32, .tge 0x15 0xA 0x201), (0x02AA8071#32, .tgeu 0x15 0xA 0x201),
      (0x02AA8072#32, .tlt 0x15 0xA 0x201), (0x02AA8073#32, .tltu 0x15 0xA 0x201),
      (0x02AA8074#32, .teq 0x15 0xA 0x201), (0x02AA8076#32, .tne 0x15 0xA 0x201),
      (0x06A88001#32, .tgei 0x15 0x8001), (0x06A98001#32, .tgeiu 0x15 0x8001),
      (0x06AA8001#32, .tlti 0x15 0x8001), (0x06AB8001#32, .tltiu 0x15 0x8001),
      (0x06AC8001#32, .teqi 0x15 0x8001), (0x06AE8001#32, .tnei 0x15 0x8001)] : List (Word × Instr)),
      decodeWord p.1 = .ok p.2 ∧ encode p.2 = p.1 := by decide

/-- Words of the instructions of 44_system.md, from the rows of the opcode table and 30 R151. -/
theorem test_decode_system_2 :
    ∀ p ∈ ([
      (0x400A9800#32, .mfc0 0xA 0x13), (0x402A9800#32, .dmfc0 0xA 0x13), (0x408A9800#32, .mtc0 0xA 0x13),
      (0x40AA9800#32, .dmtc0 0xA 0x13), (0x42000018#32, .eret), (0x46000001#32, .cop1 0x2000001),
      (0x4A000001#32, .cop2 0x2000001), (0x4E000001#32, .cop3 0x2000001),
      (0xC6AA8001#32, .lwc1 0x15 0xA 0x8001), (0xCAAA8001#32, .lwc2 0x15 0xA 0x8001),
      (0xD6AA8001#32, .ldc1 0x15 0xA 0x8001), (0xDAAA8001#32, .ldc2 0x15 0xA 0x8001),
      (0xE6AA8001#32, .swc1 0x15 0xA 0x8001), (0xEAAA8001#32, .swc2 0x15 0xA 0x8001)] : List (Word × Instr)),
      decodeWord p.1 = .ok p.2 ∧ encode p.2 = p.1 := by decide

/-- Words of the instructions of 44_system.md, from the rows of the opcode table and 30 R151. -/
theorem test_decode_system_3 :
    ∀ p ∈ ([
      (0xF6AA8001#32, .sdc1 0x15 0xA 0x8001), (0xFAAA8001#32, .sdc2 0x15 0xA 0x8001)] : List (Word × Instr)),
      decodeWord p.1 = .ok p.2 ∧ encode p.2 = p.1 := by decide

/-- Words of the instructions of 45_tlb.md, from the rows of the opcode table and 30 R151. -/
theorem test_decode_tlb :
    ∀ p ∈ ([
      (0x42000001#32, .tlbr), (0x42000002#32, .tlbwi), (0x42000006#32, .tlbwr),
      (0x42000008#32, .tlbp)] : List (Word × Instr)),
      decodeWord p.1 = .ok p.2 ∧ encode p.2 = p.1 := by decide

/-- Words of each reserved group (30 R163). -/
theorem test_reserved_words :
    decodeWord 0x7C000000#32 = .error .reservedPrimary ∧ decodeWord 0x00000001#32 = .error .reservedSpecial ∧
    decodeWord 0x04140000#32 = .error .reservedRegimm ∧ decodeWord 0x40400000#32 = .error .reservedCop0 ∧
    decodeWord 0x42000010#32 = .error .reservedCo := by decide

/-- Bits outside the mask of a row are ignored (30 R159). -/
theorem test_ignored_bits :
    decodeWord 0x0109553F#32 = .ok (.dsra32 9 10 0x14) ∧ decodeWord 0x010957E0#32 = .ok (.add 8 9 10) ∧
    decodeWord 0x43FFFFD8#32 = .ok .eret := by decide

/-- Big-endian bytes, and fewer than four of them (30 R150). -/
theorem test_bytes :
    decodeBytes [0x01#8, 0x09#8, 0x50#8, 0x20#8, 0x7F#8] = .ok (.add 8 9 10, [0x7F#8]) ∧
    decodeBytes [0x01#8, 0x09#8, 0x50#8] = .error .truncated := by decide

/-- What the host asks of the decoder and of the first step after reset. -/
theorem test_table_word :
    decodeTableWord 32 0x3C0A8000 = some (.lui 10 0x8000) ∧ decodeTableWord 32 0x7C000000 = none ∧
    ((match step (State.reset.withFetchWord 32 0x3C0A8000) with
      | .next t => some (t.reg 10)
      | _ => none) = some 0xFFFFFFFF80000000#64) := by decide

-- States for the single steps (95 part 0).

/-- The start state of the vectors: reset, Status = 0, pc in kseg0 at PA 0x1000. -/
def base : State :=
  { State.reset with
    pc := 0xFFFFFFFF80001000#64
    cp0 := { Cp0.reset with status := 0 } }

/-- A TLB entry of 4 KiB pages. -/
def entry (r : BitVec 2) (vpn2 : BitVec 27) (asid : BitVec 8) (g : Bool) (even odd : TlbHalf) : TlbEntry :=
  { present := true, r := r, vpn2 := vpn2, mask := 0, asid := asid, g := g, even := even, odd := odd }

/-- The half of an entry, with C = 0. -/
def half (pfn : BitVec 24) (d v : Bool) : TlbHalf := { pfn := pfn, c := 0, d := d, v := v }

/-- The start state of the rows marked "user mode". -/
def user : State :=
  { base with
    pc := 0x1000#64
    cp0 := { Cp0.reset with status := 0x10#32 }
    tlb := base.tlb.set 0 (entry 0 0 0 true (half 0 true true) (half 1 true true)) }

/-- A state with some registers written. -/
def withRegs (s : State) (l : List (RegNum × DWord)) : State := l.foldl (fun s p => s.setReg p.1 p.2) s

/-- A state with 4-byte words in memory. -/
def withWords (s : State) (l : List (PAddr × DWord)) : State :=
  { s with mem := l.foldl (fun m p => writeBytes m p.1 4 p.2) s.mem }

/-- The memory of the load and store vectors. -/
def data : State := withWords base [(0x2000, 0x80FF7F01), (0x2004, 0x11223344)]

/-- The same with LLbit set. -/
def linked : State := { data with llbit := true }

/-- The state after one step that runs the word `w`. -/
def one (s : State) (w : Nat) : Option State :=
  match step (s.withFetchWord 32 w) with
  | .next t => some t
  | .fault _ => none
  | .refused _ => none

/-- Cause, EPC and BadVAddr, for a state in exception mode. -/
def exceptionOf (s : State) : Word × DWord × DWord := (s.cp0.cause, s.cp0.epc, s.cp0.badVAddr)

/-- HI and LO. -/
def hiLo (s : State) : DWord × DWord := (s.hi, s.lo)

/-- Where control goes after a delay slot. -/
def afterSlot (s : State) : DWord := if s.branchPending then s.branchTarget else s.pc + 4

/-- The `n`-byte value in memory at `pa`. -/
def memoryAt (pa : PAddr) (n : Nat) (s : State) : DWord := readBytes s.mem pa n

-- 95 part 2, ALU: add and subtract (40_alu.md rules R202 to R214).

/-- ADD t2, t0, t1. -/
theorem test_add :
    (one (withRegs base [(8, 0x1), (9, 0x2)]) 0x01095020).map (·.reg 10) = some 0x3 := by decide

/-- ADD t2, t0, t1 (positive overflow). -/
theorem test_add_2 :
    (one (withRegs base [(8, 0x7FFFFFFF), (9, 0x1)]) 0x01095020).map exceptionOf =
      some (0x30, 0xFFFFFFFF80001000, 0) := by decide

/-- ADDU t2, t0, t1 (wraps). -/
theorem test_addu :
    (one (withRegs base [(8, 0x7FFFFFFF), (9, 0x1)]) 0x01095021).map (·.reg 10) =
      some 0xFFFFFFFF80000000 := by decide

/-- SUB t2, t0, t1. -/
theorem test_sub :
    (one (withRegs base [(8, 0x3), (9, 0x5)]) 0x01095022).map (·.reg 10) =
      some 0xFFFFFFFFFFFFFFFE := by decide

/-- SUB t2, t0, t1 (overflow). -/
theorem test_sub_2 :
    (one (withRegs base [(8, 0xFFFFFFFF80000000), (9, 0x1)]) 0x01095022).map exceptionOf =
      some (0x30, 0xFFFFFFFF80001000, 0) := by decide

/-- SUBU t2, t0, t1. -/
theorem test_subu :
    (one (withRegs base [(8, 0xFFFFFFFF80000000), (9, 0x1)]) 0x01095023).map (·.reg 10) =
      some 0x7FFFFFFF := by decide

/-- ADDI t2, t0, -1. -/
theorem test_addi :
    (one (withRegs base [(8, 0x0)]) 0x210AFFFF).map (·.reg 10) = some 0xFFFFFFFFFFFFFFFF := by decide

/-- ADDI t2, t0, 1 (overflow). -/
theorem test_addi_2 :
    (one (withRegs base [(8, 0x7FFFFFFF)]) 0x210A0001).map exceptionOf =
      some (0x30, 0xFFFFFFFF80001000, 0) := by decide

/-- ADDIU t2, t0, 0x8000. -/
theorem test_addiu :
    (one (withRegs base [(8, 0x0)]) 0x250A8000).map (·.reg 10) = some 0xFFFFFFFFFFFF8000 := by decide

/-- ADDU t2, t0, t1 (non-sign-extended operand, D5). -/
theorem test_addu_2 :
    (one (withRegs base [(8, 0x100000001), (9, 0x1)]) 0x01095021).map (·.reg 10) = some 0x2 := by decide

/-- DADD t2, t0, t1. -/
theorem test_dadd :
    (one (withRegs base [(8, 0x7FFFFFFF), (9, 0x1)]) 0x0109502C).map (·.reg 10) =
      some 0x80000000 := by decide

/-- DADD t2, t0, t1 (overflow). -/
theorem test_dadd_2 :
    (one (withRegs base [(8, 0x7FFFFFFFFFFFFFFF), (9, 0x1)]) 0x0109502C).map exceptionOf =
      some (0x30, 0xFFFFFFFF80001000, 0) := by decide

/-- DADDU t2, t0, t1 (wraps). -/
theorem test_daddu :
    (one (withRegs base [(8, 0xFFFFFFFFFFFFFFFF), (9, 0x1)]) 0x0109502D).map (·.reg 10) =
      some 0x0 := by decide

/-- DSUB t2, t0, t1 (overflow). -/
theorem test_dsub :
    (one (withRegs base [(8, 0x8000000000000000), (9, 0x1)]) 0x0109502E).map exceptionOf =
      some (0x30, 0xFFFFFFFF80001000, 0) := by decide

/-- DSUBU t2, t0, t1. -/
theorem test_dsubu :
    (one (withRegs base [(8, 0x0), (9, 0x1)]) 0x0109502F).map (·.reg 10) =
      some 0xFFFFFFFFFFFFFFFF := by decide

/-- DADDI t2, t0, -2. -/
theorem test_daddi :
    (one (withRegs base [(8, 0x1)]) 0x610AFFFE).map (·.reg 10) = some 0xFFFFFFFFFFFFFFFF := by decide

/-- DADDIU t2, t0, 1. -/
theorem test_daddiu :
    (one (withRegs base [(8, 0xFFFFFFFF)]) 0x650A0001).map (·.reg 10) = some 0x100000000 := by decide

/-- DADDU t2, t0, t1 in user mode (pc = 0x1000, mapped). -/
theorem test_daddu_2 :
    (one (withRegs user [(8, 0x1), (9, 0x1)]) 0x0109502D).map exceptionOf =
      some (0x28, 0x1000, 0) := by decide

-- 95 part 2, ALU: comparisons (40_alu.md rules R215 to R218).

/-- SLT t2, t0, t1. -/
theorem test_slt :
    (one (withRegs base [(8, 0xFFFFFFFFFFFFFFFF), (9, 0x0)]) 0x0109502A).map (·.reg 10) =
      some 0x1 := by decide

/-- SLTU t2, t0, t1. -/
theorem test_sltu :
    (one (withRegs base [(8, 0xFFFFFFFFFFFFFFFF), (9, 0x0)]) 0x0109502B).map (·.reg 10) =
      some 0x0 := by decide

/-- SLTI t2, t0, -1. -/
theorem test_slti :
    (one (withRegs base [(8, 0xFFFFFFFFFFFFFFFE)]) 0x290AFFFF).map (·.reg 10) = some 0x1 := by decide

/-- SLTIU t2, t0, -1 (compares with 0xFFFF_FFFF_FFFF_FFFF). -/
theorem test_sltiu :
    (one (withRegs base [(8, 0x5)]) 0x2D0AFFFF).map (·.reg 10) = some 0x1 := by decide

/-- SLTIU t2, t0, 1. -/
theorem test_sltiu_2 :
    (one (withRegs base [(8, 0x0)]) 0x2D0A0001).map (·.reg 10) = some 0x1 := by decide

-- 95 part 2, ALU: logic (40_alu.md rules R219 to R226).

/-- AND t2, t0, t1. -/
theorem test_and :
    (one (withRegs base [(8, 0xF0F0), (9, 0xFF00)]) 0x01095024).map (·.reg 10) = some 0xF000 := by decide

/-- OR t2, t0, t1. -/
theorem test_or :
    (one (withRegs base [(8, 0xF0F0), (9, 0xFF00)]) 0x01095025).map (·.reg 10) = some 0xFFF0 := by decide

/-- XOR t2, t0, t1. -/
theorem test_xor :
    (one (withRegs base [(8, 0xF0F0), (9, 0xFF00)]) 0x01095026).map (·.reg 10) = some 0xFF0 := by decide

/-- NOR t2, t0, t1. -/
theorem test_nor :
    (one (withRegs base [(8, 0xF0F0), (9, 0xFF00)]) 0x01095027).map (·.reg 10) =
      some 0xFFFFFFFFFFFF000F := by decide

/-- ANDI t2, t0, 0x8000 (zero-extended). -/
theorem test_andi :
    (one (withRegs base [(8, 0xFFFFFFFFFFFFFFFF)]) 0x310A8000).map (·.reg 10) = some 0x8000 := by decide

/-- ORI t2, t0, 0xFFFF. -/
theorem test_ori :
    (one (withRegs base [(8, 0x12340000)]) 0x350AFFFF).map (·.reg 10) = some 0x1234FFFF := by decide

/-- XORI t2, t0, 0xFFFF. -/
theorem test_xori :
    (one (withRegs base [(8, 0xFFFFFFFFFFFFFFFF)]) 0x390AFFFF).map (·.reg 10) =
      some 0xFFFFFFFFFFFF0000 := by decide

/-- LUI t2, 0x8000. -/
theorem test_lui :
    (one base 0x3C0A8000).map (·.reg 10) = some 0xFFFFFFFF80000000 := by decide

/-- LUI t2, 0x7FFF. -/
theorem test_lui_2 :
    (one base 0x3C0A7FFF).map (·.reg 10) = some 0x7FFF0000 := by decide

-- 95 part 2, ALU: shifts (40_alu.md rules R227 to R241).

/-- SLL t2, t0, 31. -/
theorem test_sll :
    (one (withRegs base [(8, 0x1)]) 0x000857C0).map (·.reg 10) = some 0xFFFFFFFF80000000 := by decide

/-- SLL zero, zero, 0 (NOP). -/
theorem test_sll_2 :
    (one base 0x00000000).map (·.pc) = some 0xFFFFFFFF80001004 := by decide

/-- SRL t2, t0, 4. -/
theorem test_srl :
    (one (withRegs base [(8, 0xFFFFFFFFFFFFFFF0)]) 0x00085102).map (·.reg 10) = some 0xFFFFFFF := by decide

/-- SRA t2, t0, 4. -/
theorem test_sra :
    (one (withRegs base [(8, 0xFFFFFFFFFFFFFFF0)]) 0x00085103).map (·.reg 10) =
      some 0xFFFFFFFFFFFFFFFF := by decide

/-- SLLV t2, t0, t1 (amount 33 masked to 1). -/
theorem test_sllv :
    (one (withRegs base [(8, 0x1), (9, 0x21)]) 0x01285004).map (·.reg 10) = some 0x2 := by decide

/-- SRLV t2, t0, t1 (amount 0). -/
theorem test_srlv :
    (one (withRegs base [(8, 0x80000000), (9, 0x20)]) 0x01285006).map (·.reg 10) =
      some 0xFFFFFFFF80000000 := by decide

/-- SRAV t2, t0, t1. -/
theorem test_srav :
    (one (withRegs base [(8, 0xFFFFFFFF80000000), (9, 0x1F)]) 0x01285007).map (·.reg 10) =
      some 0xFFFFFFFFFFFFFFFF := by decide

/-- DSLL t2, t0, 4. -/
theorem test_dsll :
    (one (withRegs base [(8, 0x123456789ABCDEF)]) 0x00085138).map (·.reg 10) =
      some 0x123456789ABCDEF0 := by decide

/-- DSRL t2, t0, 4. -/
theorem test_dsrl :
    (one (withRegs base [(8, 0xFFFFFFFFFFFFFFFF)]) 0x0008513A).map (·.reg 10) =
      some 0xFFFFFFFFFFFFFFF := by decide

/-- DSRA t2, t0, 4. -/
theorem test_dsra :
    (one (withRegs base [(8, 0x8000000000000000)]) 0x0008513B).map (·.reg 10) =
      some 0xF800000000000000 := by decide

/-- DSLL32 t2, t0, 0. -/
theorem test_dsll32 :
    (one (withRegs base [(8, 0xFFFFFFFF)]) 0x0008503C).map (·.reg 10) = some 0xFFFFFFFF00000000 := by decide

/-- DSRL32 t2, t0, 31. -/
theorem test_dsrl32 :
    (one (withRegs base [(8, 0xFFFFFFFFFFFFFFFF)]) 0x000857FE).map (·.reg 10) = some 0x1 := by decide

/-- DSRA32 t2, t0, 0. -/
theorem test_dsra32 :
    (one (withRegs base [(8, 0x8000000000000000)]) 0x0008503F).map (·.reg 10) =
      some 0xFFFFFFFF80000000 := by decide

/-- DSLLV t2, t0, t1 (amount 65 masked to 1). -/
theorem test_dsllv :
    (one (withRegs base [(8, 0x1), (9, 0x41)]) 0x01285014).map (·.reg 10) = some 0x2 := by decide

/-- DSRLV t2, t0, t1. -/
theorem test_dsrlv :
    (one (withRegs base [(8, 0xFFFFFFFFFFFFFFFF), (9, 0x3F)]) 0x01285016).map (·.reg 10) =
      some 0x1 := by decide

/-- DSRAV t2, t0, t1. -/
theorem test_dsrav :
    (one (withRegs base [(8, 0xFFFFFFFFFFFFFFFE), (9, 0x1)]) 0x01285017).map (·.reg 10) =
      some 0xFFFFFFFFFFFFFFFF := by decide

-- 95 part 2, Multiply and divide (41_muldiv.md rules R260 to R273).

/-- MULT t0, t1. -/
theorem test_mult :
    (one (withRegs base [(8, 0xFFFFFFFFFFFFFFFF), (9, 0xFFFFFFFFFFFFFFFF)]) 0x01090018).map hiLo =
      some (0x0, 0x1) := by decide

/-- MULT t0, t1 (-2^31 * -2^31). -/
theorem test_mult_2 :
    (one (withRegs base [(8, 0xFFFFFFFF80000000), (9, 0xFFFFFFFF80000000)]) 0x01090018).map hiLo =
      some (0x40000000, 0x0) := by decide

/-- MULTU t0, t1. -/
theorem test_multu :
    (one (withRegs base [(8, 0xFFFFFFFFFFFFFFFF), (9, 0xFFFFFFFFFFFFFFFF)]) 0x01090019).map hiLo =
      some (0xFFFFFFFFFFFFFFFE, 0x1) := by decide

/-- DIV t0, t1 (-7 / 2). -/
theorem test_div :
    (one (withRegs base [(8, 0xFFFFFFFFFFFFFFF9), (9, 0x2)]) 0x0109001A).map hiLo =
      some (0xFFFFFFFFFFFFFFFF, 0xFFFFFFFFFFFFFFFD) := by decide

/-- DIV t0, t1 (7 / -2). -/
theorem test_div_2 :
    (one (withRegs base [(8, 0x7), (9, 0xFFFFFFFFFFFFFFFE)]) 0x0109001A).map hiLo =
      some (0x1, 0xFFFFFFFFFFFFFFFD) := by decide

/-- DIVU t0, t1. -/
theorem test_divu :
    (one (withRegs base [(8, 0xFFFFFFFFFFFFFFFF), (9, 0x10)]) 0x0109001B).map hiLo =
      some (0xF, 0xFFFFFFF) := by decide

/-- DMULT t0, t1. -/
theorem test_dmult :
    (one (withRegs base [(8, 0xFFFFFFFFFFFFFFFF), (9, 0x2)]) 0x0109001C).map hiLo =
      some (0xFFFFFFFFFFFFFFFF, 0xFFFFFFFFFFFFFFFE) := by decide

/-- DMULTU t0, t1. -/
theorem test_dmultu :
    (one (withRegs base [(8, 0xFFFFFFFFFFFFFFFF), (9, 0xFFFFFFFFFFFFFFFF)]) 0x0109001D).map hiLo =
      some (0xFFFFFFFFFFFFFFFE, 0x1) := by decide

/-- DDIV t0, t1 (-2^63 / -1, D27). -/
theorem test_ddiv :
    (one (withRegs base [(8, 0x8000000000000000), (9, 0xFFFFFFFFFFFFFFFF)]) 0x0109001E).map hiLo =
      some (0x0, 0x8000000000000000) := by decide

/-- DDIVU t0, t1. -/
theorem test_ddivu :
    (one (withRegs base [(8, 0xFFFFFFFFFFFFFFFF), (9, 0x100000000)]) 0x0109001F).map hiLo =
      some (0xFFFFFFFF, 0xFFFFFFFF) := by decide

/-- MFHI t2 (HI = 0x1234 before). -/
theorem test_mfhi :
    (one { base with hi := 0x1234#64, lo := 0xFFFFFFFFFFFFFFFB#64 } 0x00005010).map (·.reg 10) =
      some 0x1234 := by decide

/-- MFLO t2 (LO = -5 before). -/
theorem test_mflo :
    (one { base with hi := 0x1234#64, lo := 0xFFFFFFFFFFFFFFFB#64 } 0x00005012).map (·.reg 10) =
      some 0xFFFFFFFFFFFFFFFB := by decide

/-- MTHI t0. -/
theorem test_mthi :
    (one (withRegs base [(8, 0x7)]) 0x01000011).map hiLo = some (0x7, 0x0) := by decide

/-- MTLO t0. -/
theorem test_mtlo :
    (one (withRegs base [(8, 0xFFFFFFFFFFFFFFFF)]) 0x01000013).map hiLo =
      some (0x0, 0xFFFFFFFFFFFFFFFF) := by decide

-- 95 part 2, Branches and jumps.

/-- J 0x80002000. -/
theorem test_j :
    (one base 0x08000800).map afterSlot = some 0xFFFFFFFF80002000 := by decide

/-- JAL 0x80002000. -/
theorem test_jal :
    (one base 0x0C000800).map (·.reg 31) = some 0xFFFFFFFF80001008 ∧
      (one base 0x0C000800).map afterSlot = some 0xFFFFFFFF80002000 := by decide

/-- JR t0. -/
theorem test_jr :
    (one (withRegs base [(8, 0xFFFFFFFF80003000)]) 0x01000008).map afterSlot =
      some 0xFFFFFFFF80003000 := by decide

/-- JALR t1, t0. -/
theorem test_jalr :
    (one (withRegs base [(8, 0xFFFFFFFF80003000)]) 0x01004809).map (·.reg 9) =
      some 0xFFFFFFFF80001008 ∧
      (one (withRegs base [(8, 0xFFFFFFFF80003000)]) 0x01004809).map afterSlot =
      some 0xFFFFFFFF80003000 := by decide

/-- JALR zero, t0 (links 31, C17). -/
theorem test_jalr_2 :
    (one (withRegs base [(8, 0xFFFFFFFF80003000)]) 0x01000009).map (·.reg 31) =
      some 0xFFFFFFFF80001008 ∧
      (one (withRegs base [(8, 0xFFFFFFFF80003000)]) 0x01000009).map afterSlot =
      some 0xFFFFFFFF80003000 := by decide

/-- BEQ t0, t1, 0x10 (taken). -/
theorem test_beq :
    (one (withRegs base [(8, 0x1), (9, 0x1)]) 0x11090010).map afterSlot =
      some 0xFFFFFFFF80001044 := by decide

/-- BEQ t0, t1, 0x10 (not taken). -/
theorem test_beq_2 :
    (one (withRegs base [(8, 0x1), (9, 0x2)]) 0x11090010).map afterSlot =
      some 0xFFFFFFFF80001008 := by decide

/-- BNE t0, t1, -2 (taken, backwards). -/
theorem test_bne :
    (one (withRegs base [(8, 0x1), (9, 0x2)]) 0x1509FFFE).map afterSlot =
      some 0xFFFFFFFF80000FFC := by decide

/-- BLEZ t0, 4 (x = 0, taken). -/
theorem test_blez :
    (one (withRegs base [(8, 0x0)]) 0x19000004).map afterSlot = some 0xFFFFFFFF80001014 := by decide

/-- BGTZ t0, 4 (x = -1, not taken). -/
theorem test_bgtz :
    (one (withRegs base [(8, 0xFFFFFFFFFFFFFFFF)]) 0x1D000004).map afterSlot =
      some 0xFFFFFFFF80001008 := by decide

/-- BLTZ t0, 4 (taken). -/
theorem test_bltz :
    (one (withRegs base [(8, 0xFFFFFFFFFFFFFFFF)]) 0x05000004).map afterSlot =
      some 0xFFFFFFFF80001014 := by decide

/-- BGEZ t0, 4 (x = 0, taken). -/
theorem test_bgez :
    (one (withRegs base [(8, 0x0)]) 0x05010004).map afterSlot = some 0xFFFFFFFF80001014 := by decide

/-- BLTZAL t0, 4 (not taken, still links). -/
theorem test_bltzal :
    (one (withRegs base [(8, 0x1)]) 0x05100004).map (·.reg 31) = some 0xFFFFFFFF80001008 ∧
      (one (withRegs base [(8, 0x1)]) 0x05100004).map afterSlot = some 0xFFFFFFFF80001008 := by decide

/-- BGEZAL t0, 4 (taken). -/
theorem test_bgezal :
    (one (withRegs base [(8, 0x1)]) 0x05110004).map (·.reg 31) = some 0xFFFFFFFF80001008 ∧
      (one (withRegs base [(8, 0x1)]) 0x05110004).map afterSlot = some 0xFFFFFFFF80001014 := by decide

/-- BEQL t0, t1, 4 (taken). -/
theorem test_beql :
    (one (withRegs base [(8, 0x1), (9, 0x1)]) 0x51090004).map afterSlot =
      some 0xFFFFFFFF80001014 := by decide

/-- BEQL t0, t1, 4 (not taken: slot annulled). -/
theorem test_beql_2 :
    (one (withRegs base [(8, 0x1), (9, 0x2)]) 0x51090004).map (·.pc) = some 0xFFFFFFFF80001008 := by decide

/-- BNEL t0, t1, 4 (not taken: slot annulled). -/
theorem test_bnel :
    (one (withRegs base [(8, 0x1), (9, 0x1)]) 0x55090004).map (·.pc) = some 0xFFFFFFFF80001008 := by decide

/-- BLEZL t0, 4 (taken). -/
theorem test_blezl :
    (one (withRegs base [(8, 0xFFFFFFFFFFFFFFFB)]) 0x59000004).map afterSlot =
      some 0xFFFFFFFF80001014 := by decide

/-- BGTZL t0, 4 (not taken). -/
theorem test_bgtzl :
    (one (withRegs base [(8, 0x0)]) 0x5D000004).map (·.pc) = some 0xFFFFFFFF80001008 := by decide

/-- BLTZL t0, 4 (taken). -/
theorem test_bltzl :
    (one (withRegs base [(8, 0xFFFFFFFFFFFFFFFF)]) 0x05020004).map afterSlot =
      some 0xFFFFFFFF80001014 := by decide

/-- BGEZL t0, 4 (not taken). -/
theorem test_bgezl :
    (one (withRegs base [(8, 0xFFFFFFFFFFFFFFFF)]) 0x05030004).map (·.pc) =
      some 0xFFFFFFFF80001008 := by decide

/-- BLTZALL t0, 4 (not taken: links, slot annulled). -/
theorem test_bltzall :
    (one (withRegs base [(8, 0x0)]) 0x05120004).map (·.reg 31) = some 0xFFFFFFFF80001008 ∧
      (one (withRegs base [(8, 0x0)]) 0x05120004).map (·.pc) = some 0xFFFFFFFF80001008 := by decide

/-- BGEZALL t0, 4 (taken). -/
theorem test_bgezall :
    (one (withRegs base [(8, 0x0)]) 0x05130004).map (·.reg 31) = some 0xFFFFFFFF80001008 ∧
      (one (withRegs base [(8, 0x0)]) 0x05130004).map afterSlot = some 0xFFFFFFFF80001014 := by decide

-- 95 part 2, Loads (43_loadstore.md rules R310 to R322).

/-- LB t2, 0(t0). -/
theorem test_lb :
    (one (withRegs data [(8, 0xFFFFFFFF80002000)]) 0x810A0000).map (·.reg 10) =
      some 0xFFFFFFFFFFFFFF80 := by decide

/-- LBU t2, 0(t0). -/
theorem test_lbu :
    (one (withRegs data [(8, 0xFFFFFFFF80002000)]) 0x910A0000).map (·.reg 10) = some 0x80 := by decide

/-- LB t2, 3(t0). -/
theorem test_lb_2 :
    (one (withRegs data [(8, 0xFFFFFFFF80002000)]) 0x810A0003).map (·.reg 10) = some 0x1 := by decide

/-- LH t2, 0(t0). -/
theorem test_lh :
    (one (withRegs data [(8, 0xFFFFFFFF80002000)]) 0x850A0000).map (·.reg 10) =
      some 0xFFFFFFFFFFFF80FF := by decide

/-- LHU t2, 0(t0). -/
theorem test_lhu :
    (one (withRegs data [(8, 0xFFFFFFFF80002000)]) 0x950A0000).map (·.reg 10) = some 0x80FF := by decide

/-- LH t2, 1(t0) (misaligned). -/
theorem test_lh_2 :
    (one (withRegs data [(8, 0xFFFFFFFF80002000)]) 0x850A0001).map exceptionOf =
      some (0x10, 0xFFFFFFFF80001000, 0xFFFFFFFF80002001) := by decide

/-- LW t2, 0(t0). -/
theorem test_lw :
    (one (withRegs data [(8, 0xFFFFFFFF80002000)]) 0x8D0A0000).map (·.reg 10) =
      some 0xFFFFFFFF80FF7F01 := by decide

/-- LW t2, 2(t0) (misaligned). -/
theorem test_lw_2 :
    (one (withRegs data [(8, 0xFFFFFFFF80002000)]) 0x8D0A0002).map exceptionOf =
      some (0x10, 0xFFFFFFFF80001000, 0xFFFFFFFF80002002) := by decide

/-- LWU t2, 0(t0). -/
theorem test_lwu :
    (one (withRegs data [(8, 0xFFFFFFFF80002000)]) 0x9D0A0000).map (·.reg 10) = some 0x80FF7F01 := by decide

/-- LD t2, 0(t0). -/
theorem test_ld :
    (one (withRegs data [(8, 0xFFFFFFFF80002000)]) 0xDD0A0000).map (·.reg 10) =
      some 0x80FF7F0111223344 := by decide

/-- LD t2, 4(t0) (misaligned). -/
theorem test_ld_2 :
    (one (withRegs data [(8, 0xFFFFFFFF80002000)]) 0xDD0A0004).map exceptionOf =
      some (0x10, 0xFFFFFFFF80001000, 0xFFFFFFFF80002004) := by decide

/-- LWL t2, 1(t0). -/
theorem test_lwl :
    (one (withRegs data [(8, 0xFFFFFFFF80002000), (10, 0xAABBCCDD)]) 0x890A0001).map (·.reg 10) =
      some 0xFFFFFFFFFF7F01DD := by decide

/-- LWR t2, 1(t0). -/
theorem test_lwr :
    (one (withRegs data [(8, 0xFFFFFFFF80002000), (10, 0xAABBCCDD)]) 0x990A0001).map (·.reg 10) =
      some 0xFFFFFFFFAABB80FF := by decide

/-- LDL t2, 2(t0). -/
theorem test_ldl :
    (one (withRegs data [(8, 0xFFFFFFFF80002000), (10, 0xFFFFFFFFFFFFFFFF)]) 0x690A0002).map (·.reg 10) =
      some 0x7F0111223344FFFF := by decide

/-- LDR t2, 2(t0). -/
theorem test_ldr :
    (one (withRegs data [(8, 0xFFFFFFFF80002000), (10, 0xFFFFFFFFFFFFFFFF)]) 0x6D0A0002).map (·.reg 10) =
      some 0xFFFFFFFFFF80FF7F := by decide

-- 95 part 2, Stores (43_loadstore.md rules R323 to R331).

/-- SB t1, 1(t0). -/
theorem test_sb :
    (one (withRegs data [(8, 0xFFFFFFFF80002000), (9, 0x102030405060708)]) 0xA1090001).map (memoryAt 0x2000 4) =
      some 0x80087F01 := by decide

/-- SH t1, 2(t0). -/
theorem test_sh :
    (one (withRegs data [(8, 0xFFFFFFFF80002000), (9, 0x102030405060708)]) 0xA5090002).map (memoryAt 0x2000 4) =
      some 0x80FF0708 := by decide

/-- SW t1, 4(t0). -/
theorem test_sw :
    (one (withRegs data [(8, 0xFFFFFFFF80002000), (9, 0x102030405060708)]) 0xAD090004).map (memoryAt 0x2004 4) =
      some 0x5060708 := by decide

/-- SD t1, 0(t0). -/
theorem test_sd :
    (one (withRegs data [(8, 0xFFFFFFFF80002000), (9, 0x102030405060708)]) 0xFD090000).map (memoryAt 0x2000 8) =
      some 0x102030405060708 := by decide

/-- SW t1, 1(t0) (misaligned). -/
theorem test_sw_2 :
    (one (withRegs data [(8, 0xFFFFFFFF80002000), (9, 0x102030405060708)]) 0xAD090001).map exceptionOf =
      some (0x14, 0xFFFFFFFF80001000, 0xFFFFFFFF80002001) := by decide

/-- SWL t1, 1(t0). -/
theorem test_swl :
    (one (withRegs data [(8, 0xFFFFFFFF80002000), (9, 0x102030405060708)]) 0xA9090001).map (memoryAt 0x2000 4) =
      some 0x80050607 := by decide

/-- SWR t1, 1(t0). -/
theorem test_swr :
    (one (withRegs data [(8, 0xFFFFFFFF80002000), (9, 0x102030405060708)]) 0xB9090001).map (memoryAt 0x2000 4) =
      some 0x7087F01 := by decide

/-- SDL t1, 2(t0). -/
theorem test_sdl :
    (one (withRegs data [(8, 0xFFFFFFFF80002000), (9, 0x102030405060708)]) 0xB1090002).map (memoryAt 0x2000 8) =
      some 0x80FF010203040506 := by decide

/-- SDR t1, 2(t0). -/
theorem test_sdr :
    (one (withRegs data [(8, 0xFFFFFFFF80002000), (9, 0x102030405060708)]) 0xB5090002).map (memoryAt 0x2000 8) =
      some 0x607080111223344 := by decide

-- 95 part 2, LL and SC (43_loadstore.md rules R336 to R341).

/-- LL t2, 4(t0). -/
theorem test_ll :
    (one (withRegs data [(8, 0xFFFFFFFF80002000)]) 0xC10A0004).map (·.reg 10) = some 0x11223344 ∧
      (one (withRegs data [(8, 0xFFFFFFFF80002000)]) 0xC10A0004).map (·.llbit) = some true ∧
      (one (withRegs data [(8, 0xFFFFFFFF80002000)]) 0xC10A0004).map (·.cp0.llAddr) = some 0x200 := by decide

/-- SC t1, 4(t0) with LLbit = 1. -/
theorem test_sc :
    (one (withRegs linked [(8, 0xFFFFFFFF80002000), (9, 0x55)]) 0xE1090004).map (·.reg 9) =
      some 0x1 ∧
      (one (withRegs linked [(8, 0xFFFFFFFF80002000), (9, 0x55)]) 0xE1090004).map (memoryAt 0x2004 4) =
      some 0x55 ∧
      (one (withRegs linked [(8, 0xFFFFFFFF80002000), (9, 0x55)]) 0xE1090004).map (·.llbit) =
      some false := by decide

/-- SC t1, 4(t0) with LLbit = 0. -/
theorem test_sc_2 :
    (one (withRegs data [(8, 0xFFFFFFFF80002000), (9, 0x55)]) 0xE1090004).map (·.reg 9) =
      some 0x0 ∧
      (one (withRegs data [(8, 0xFFFFFFFF80002000), (9, 0x55)]) 0xE1090004).map (memoryAt 0x2004 4) =
      some 0x11223344 ∧
      (one (withRegs data [(8, 0xFFFFFFFF80002000), (9, 0x55)]) 0xE1090004).map (·.llbit) =
      some false := by decide

/-- LLD t2, 0(t0). -/
theorem test_lld :
    (one (withRegs data [(8, 0xFFFFFFFF80002000)]) 0xD10A0000).map (·.reg 10) =
      some 0x80FF7F0111223344 ∧
      (one (withRegs data [(8, 0xFFFFFFFF80002000)]) 0xD10A0000).map (·.llbit) = some true := by decide

/-- SCD t1, 0(t0) with LLbit = 1. -/
theorem test_scd :
    (one (withRegs linked [(8, 0xFFFFFFFF80002000), (9, 0xFFFFFFFFFFFFFFFF)]) 0xF1090000).map (·.reg 9) =
      some 0x1 ∧
      (one (withRegs linked [(8, 0xFFFFFFFF80002000), (9, 0xFFFFFFFFFFFFFFFF)]) 0xF1090000).map (memoryAt 0x2000 8) =
      some 0xFFFFFFFFFFFFFFFF := by decide

-- 95 part 2, SYNC and CACHE (43_loadstore.md rules R342).

/-- SYNC. -/
theorem test_sync :
    (one base 0x0000000F).map (·.pc) = some 0xFFFFFFFF80001004 := by decide

/-- CACHE 0, 0(t0). -/
theorem test_cache :
    (one (withRegs base [(8, 0x400000)]) 0xBD000000).map (·.pc) = some 0xFFFFFFFF80001004 := by decide

/-- CACHE 0, 0(t0) in user mode. -/
theorem test_cache_2 :
    (one (withRegs user [(8, 0x400000)]) 0xBD000000).map exceptionOf = some (0x2C, 0x1000, 0) := by decide

-- 95 part 2, SYSCALL.

/-- SYSCALL. -/
theorem test_syscall :
    (one base 0x0000000C).map exceptionOf = some (0x20, 0xFFFFFFFF80001000, 0) := by decide

/-- BREAK. -/
theorem test_break :
    (one base 0x0000000D).map exceptionOf = some (0x24, 0xFFFFFFFF80001000, 0) := by decide

/-- TGE t0, t1. -/
theorem test_tge :
    (one (withRegs base [(8, 0x5), (9, 0x5)]) 0x01090030).map exceptionOf =
      some (0x34, 0xFFFFFFFF80001000, 0) := by decide

/-- TGEU t0, t1. -/
theorem test_tgeu :
    (one (withRegs base [(8, 0xFFFFFFFFFFFFFFFF), (9, 0x0)]) 0x01090031).map exceptionOf =
      some (0x34, 0xFFFFFFFF80001000, 0) := by decide

/-- TLT t0, t1. -/
theorem test_tlt :
    (one (withRegs base [(8, 0xFFFFFFFFFFFFFFFF), (9, 0x0)]) 0x01090032).map exceptionOf =
      some (0x34, 0xFFFFFFFF80001000, 0) := by decide

/-- TLTU t0, t1. -/
theorem test_tltu :
    (one (withRegs base [(8, 0xFFFFFFFFFFFFFFFF), (9, 0x0)]) 0x01090033).map (·.pc) =
      some 0xFFFFFFFF80001004 := by decide

/-- TEQ t0, t1. -/
theorem test_teq :
    (one (withRegs base [(8, 0x3), (9, 0x3)]) 0x01090034).map exceptionOf =
      some (0x34, 0xFFFFFFFF80001000, 0) := by decide

/-- TNE t0, t1. -/
theorem test_tne :
    (one (withRegs base [(8, 0x3), (9, 0x3)]) 0x01090036).map (·.pc) = some 0xFFFFFFFF80001004 := by decide

/-- TGEI t0, -1. -/
theorem test_tgei :
    (one (withRegs base [(8, 0x0)]) 0x0508FFFF).map exceptionOf =
      some (0x34, 0xFFFFFFFF80001000, 0) := by decide

/-- TGEIU t0, 0xFFFF. -/
theorem test_tgeiu :
    (one (withRegs base [(8, 0x0)]) 0x0509FFFF).map (·.pc) = some 0xFFFFFFFF80001004 := by decide

/-- TLTI t0, -1. -/
theorem test_tlti :
    (one (withRegs base [(8, 0xFFFFFFFFFFFFFFFE)]) 0x050AFFFF).map exceptionOf =
      some (0x34, 0xFFFFFFFF80001000, 0) := by decide

/-- TLTIU t0, 0x8000. -/
theorem test_tltiu :
    (one (withRegs base [(8, 0x5)]) 0x050B8000).map exceptionOf =
      some (0x34, 0xFFFFFFFF80001000, 0) := by decide

/-- TEQI t0, -1. -/
theorem test_teqi :
    (one (withRegs base [(8, 0xFFFFFFFFFFFFFFFF)]) 0x050CFFFF).map exceptionOf =
      some (0x34, 0xFFFFFFFF80001000, 0) := by decide

/-- TNEI t0, -1. -/
theorem test_tnei :
    (one (withRegs base [(8, 0xFFFFFFFFFFFFFFFF)]) 0x050EFFFF).map (·.pc) =
      some 0xFFFFFFFF80001004 := by decide

/-- LW from kuseg with an empty TLB: a refill through the base of the vector (95 part 2). -/
theorem test_lw_refill :
    (one (withRegs base [(8, 0x400000)]) 0x8D0A0000).map
      (fun t => (exceptionOf t, t.pc, t.cp0.entryHi, t.cp0.context)) =
      some ((0x8, 0xFFFFFFFF80001000, 0x400000), 0xFFFFFFFF80000000, 0x400000, 0x2000) := by decide

/-- LW from a non-canonical address. -/
theorem test_lw_noncanonical :
    (one (withRegs base [(8, 0x80000000)]) 0x8D0A0000).map exceptionOf =
      some (0x10, 0xFFFFFFFF80001000, 0x80000000) := by decide

/-- LB from the word-only device of 95 part 0. -/
theorem test_lb_device :
    (one (withRegs { base with bus := [⟨0x1F000000, 0x100, .device [.word]⟩] } [(8, 0xFFFFFFFFBF000000)])
      0x810A0000).map exceptionOf = some (0x10, 0xFFFFFFFF80001000, 0xFFFFFFFFBF000000) := by decide

/-- LW from a physical address with nothing behind it. -/
theorem test_lw_unmapped :
    (one (withRegs { base with bus := [⟨0x08000000, 0x1000, .unmapped⟩] } [(8, 0xFFFFFFFF88000000)])
      0x8D0A0000).map exceptionOf = some (0x1C, 0xFFFFFFFF80001000, 0xFFFFFFFF88000000) := by decide

-- 95 part 2, the CP0 moves and ERET (44_system.md rules R366 to R372).

/-- MFC0 t2, Count. -/
theorem test_mfc0 :
    (one { base with cp0 := { base.cp0 with count := 0x80000001 } } 0x400A4800).map (·.reg 10) =
      some 0xFFFFFFFF80000001 := by decide

/-- MFC0 t2, EPC: bits 63:32 are lost. -/
theorem test_mfc0_2 :
    (one { base with cp0 := { base.cp0 with epc := 0x123456789 } } 0x400A7000).map (·.reg 10) =
      some 0x23456789 := by decide

/-- DMFC0 t2, EPC. -/
theorem test_dmfc0 :
    (one { base with cp0 := { base.cp0 with epc := 0x123456789 } } 0x402A7000).map (·.reg 10) =
      some 0x123456789 := by decide

/-- MTC0 t1, Status, all ones. -/
theorem test_mtc0 :
    (one (withRegs base [(9, 0xFFFFFFFFFFFFFFFF)]) 0x40896000).map (·.cp0.status) = some 0x1047FF1F := by decide

/-- MTC0 t1, Wired: Random becomes TLB_SIZE-1. -/
theorem test_mtc0_2 :
    (one (withRegs { base with cp0 := { base.cp0 with random := 20 } } [(9, 0xA)]) 0x40893000).map
      (fun t => (t.cp0.wired, t.cp0.random)) = some (0xA, 0x3F) := by decide

/-- DMTC0 t1, EntryHi. -/
theorem test_dmtc0 :
    (one (withRegs base [(9, 0xC000000012345FFF)]) 0x40A95000).map (·.cp0.entryHi) =
      some 0xC0000000123440FF := by decide

/-- ERET with EXL = 1. -/
theorem test_eret :
    (one { base with
      cp0 := { base.cp0 with
        status := 0x2
        epc := 0xFFFFFFFF80004000 }
      llbit := true } 0x42000018).map (fun t => (t.cp0.status, t.pc, t.llbit)) =
      some (0x0, 0xFFFFFFFF80004000, false) := by decide

/-- ERET in user mode. -/
theorem test_eret_2 : (one user 0x42000018).map exceptionOf = some (0x2C, 0x1000, 0) := by decide

-- 95 part 2, the coprocessor encodings (44_system.md rules R374 to R385).

/-- Each of them raises Coprocessor Unusable with its unit in Cause.CE, also in user mode. -/
theorem test_coprocessor :
    ∀ p ∈ ([(0x46000000, 0x1000002C#32), (0x4A000000, 0x2000002C#32), (0x4C000000, 0x3000002C#32),
      (0xC5000000, 0x1000002C#32), (0xC9000000, 0x2000002C#32), (0xD5000000, 0x1000002C#32),
      (0xD9000000, 0x2000002C#32), (0xE5000000, 0x1000002C#32), (0xE9000000, 0x2000002C#32),
      (0xF5000000, 0x1000002C#32), (0xF9000000, 0x2000002C#32)] : List (Nat × Word)),
      (one user p.1).map (·.cp0.cause) = some p.2 := by decide

/-- Reserved words raise Reserved Instruction; a reserved COP0 word raises Coprocessor Unusable where CP0 is
not usable (30 R163, R164). -/
theorem test_reserved :
    (one base 0x7C000000).map (·.cp0.cause) = some 0x28 ∧ (one base 0x42000010).map (·.cp0.cause) = some 0x28 ∧
    (one user 0x42000010).map (·.cp0.cause) = some 0x2C := by decide

-- 95 part 2, the TLB instructions (45_tlb.md rules R400 to R405).

/-- The state with the staging registers of the TLBWI row. -/
def staged : State :=
  { base with cp0 := { base.cp0 with
    index := 5
    entryHi := 0x400055
    entryLo0 := 0x401E
    entryLo1 := 0x4017
    random := 40
    pageMask := 0x6000 } }

/-- TLBWI: G is set only where both EntryLo registers have it. -/
theorem test_tlbwi :
    (one staged 0x42000002).map (fun t => t.tlb[5]?) =
      some (some ⟨true, 0, 0x200, 0x3, 0x55, false, ⟨0x100, 3, true, true⟩, ⟨0x100, 2, true, true⟩⟩) := by decide

/-- TLBWR writes the slot at Random and moves it down. -/
theorem test_tlbwr :
    (one staged 0x42000006).map (fun t => (t.tlb[40]?.map (·.vpn2), t.cp0.random)) =
      some (some 0x200, 39) := by decide

/-- The states of the example of 45 R402: 64 slots, Wired = 62. -/
def wired62 (random : Word) : State :=
  { staged with cp0 := { staged.cp0 with wired := 62, random := random } }

/-- TLBWR with Random one above Wired and at Wired, from the example of 45 R402. -/
theorem test_tlbwr_wired :
    (one (wired62 63) 0x42000006).map (fun t => (t.tlb[63]?.map (·.vpn2), t.cp0.random)) =
      some (some 0x200, 62) ∧
    (one (wired62 62) 0x42000006).map (fun t => (t.tlb[62]?.map (·.vpn2), t.cp0.random)) =
      some (some 0x200, 63) := by decide

/-- The state of the TLBR and TLBP rows. -/
def filled : State :=
  { base with
    cp0 := { base.cp0 with
      index := 3
      entryHi := 0x400055 }
    tlb := (base.tlb.set 7 (entry 0 0x200 0x55 false (half 0 false false) (half 0 false false))).set 3
      ⟨true, 0, 0x201, 0, 0x55, false, ⟨0x100, 3, true, true⟩, ⟨0x101, 2, true, true⟩⟩ }

/-- TLBR. -/
theorem test_tlbr :
    (one filled 0x42000001).map
      (fun t => (t.cp0.entryHi, t.cp0.pageMask, t.cp0.entryLo0, t.cp0.entryLo1)) =
      some (0x402055, 0x0, 0x401E, 0x4056) := by decide

/-- TLBP with a hit, and with another ASID. -/
theorem test_tlbp :
    (one filled 0x42000008).map (·.cp0.index) = some 0x7 ∧
    (one { filled with cp0 := { filled.cp0 with entryHi := 0x400056 } } 0x42000008).map (·.cp0.index) =
      some 0x80000003 := by decide

-- 95 part 2, translation (20_memory.md rules R108 to R121).

/-- VA 0x0040_0000 and 0x0040_1000 mapped to PFN 5 and 6, with the given bits D and V of the even half. -/
def mapped (d v : Bool) : State :=
  withWords { base with tlb := base.tlb.set 3 (entry 0 0x200 5 true (half 5 d v) (half 6 true true)) }
    [(0x5000, 0xCAFEF00D), (0x6000, 0x12345678)]

/-- LW through the even and the odd half of a global entry. -/
theorem test_mapped_load :
    (one (withRegs (mapped true true) [(8, 0x400000)]) 0x8D0A0000).map (·.reg 10) = some 0xFFFFFFFFCAFEF00D ∧
    (one (withRegs (mapped true true) [(8, 0x401000)]) 0x8D0A0000).map (·.reg 10) = some 0x12345678 := by decide

/-- SW with D = 0 and with V = 0. -/
theorem test_mapped_store_faults :
    (one (withRegs (mapped false true) [(8, 0x400000)]) 0xAD090000).map
      (fun t => (exceptionOf t, t.pc)) =
      some ((0x4, 0xFFFFFFFF80001000, 0x400000), 0xFFFFFFFF80000180) ∧
    (one (withRegs (mapped true false) [(8, 0x400000)]) 0xAD090000).map
      (fun t => (exceptionOf t, t.pc)) =
      some ((0xC, 0xFFFFFFFF80001000, 0x400000), 0xFFFFFFFF80000180) := by decide

/-- User mode may not load from kseg0. -/
theorem test_user_kseg0 :
    (one (withRegs user [(8, 0xFFFFFFFF80005000)]) 0x8D0A0000).map exceptionOf =
      some (0x10, 0x1000, 0xFFFFFFFF80005000) := by decide

-- 95 part 2, timer and interrupts (60_exceptions.md rules R470 to R484).

/-- The timer row: one step of a NOP from the given Count and Compare. -/
def ticked (count compare : Word) : Option (Word × Word) :=
  (one { base with cp0 := { base.cp0 with
    count := count
    compare := compare } } 0).map (fun t => (t.cp0.count, t.cp0.cause))

/-- Count passes Compare, also across the wrap, and a Count that stands on Compare does not match. -/
theorem test_timer :
    ticked 99 100 = some (0x64, 0x8000) ∧ ticked 100 100 = some (0x65, 0) ∧
    ticked 0xFFFFFFFF 0 = some (0, 0x8000) := by decide

/-- The interrupt row: pc after one step of a NOP with IP7 pending and the given Status. -/
def withIp7 (status : Word) : Option DWord :=
  (one { base with cp0 := { base.cp0 with
    status := status
    cause := 0x8000
    count := 5 } } 0).map (·.pc)

/-- IP7 pending: taken with Status 0x8001, blocked by EXL, ERL and IM7. -/
theorem test_interrupt :
    withIp7 0x8001 = some 0xFFFFFFFF80000180 ∧ withIp7 0x8003 = some 0xFFFFFFFF80001004 ∧
    withIp7 0x8005 = some 0xFFFFFFFF80001004 ∧ withIp7 0x0001 = some 0xFFFFFFFF80001004 ∧
    withIp7 0x408001 = some 0xFFFFFFFFBFC00380 := by decide

/-- An exception in a delay slot saves the branch and sets BD (60 R462). -/
theorem test_delay_slot_exception :
    (one { base with
      branchPending := true
      branchTarget := 0xFFFFFFFF80003000
      inDelaySlot := true } 0xC).map (fun t => (exceptionOf t, t.branchPending)) =
      some ((0x80000020, 0xFFFFFFFF80000FFC, 0), false) := by decide

-- States and operands that meet the hypotheses of each statement; `witness_X` is for `Obligations.X`.

/-- The word `w` where the next step fetches it. -/
def at' (s : State) (w : Nat) : State := s.withFetchWord 32 w

/-- The user mode of `user` with CU0 set. -/
def userCu0 : State := { user with cp0 := { user.cp0 with status := 0x10000010#32 } }

/-- The start state in supervisor mode. -/
def supervisor : State := { user with cp0 := { user.cp0 with status := 0x8#32 } }

theorem witness_DecodeEncodeAgree :
    (Instr.sdc2 31 31 0xFFFF).wellFormed = true ∧ Instr.eret.wellFormed = true := by decide

theorem witness_DecodeFollowsTable :
    decodeWord 0xFFFFFFFF#32 = .ok (.sd 31 31 0xFFFF) ∧
    0xFFFFFFFF#32 &&& (Instr.sd 0 0 0).tableMask = (Instr.sd 0 0 0).tableMatch ∧
    decodeWord 0x00000000#32 = .ok (.sll 0 0 0) ∧
    0x00000000#32 &&& (Instr.sll 1 2 3).tableMask = (Instr.sll 1 2 3).tableMatch := by decide

/-- A word with opcode 0x1F, a COP0 word where CP0 is usable, and two 64-bit operations in user mode. -/
theorem witness_ReservedInstructionRaised :
    (reservedWord 0x7C000000#32 = true ∧ reservedWord 0x78000000#32 = true ∧ reservedWord 0x7BFFFFFF#32 = true) ∧
    ((at' base 0x7C000000).cp0.interruptReady = false ∧ FetchesFrom (at' base 0x7C000000) 0x1000#36 ∧
      bigEndian (at' base 0x7C000000).mem 0x1000 4 = 0x7C000000 ∧ opOf 0x7C000000#32 ≠ 0x10#6) ∧
    ((at' base 0x42000010).cp0.interruptReady = false ∧ FetchesFrom (at' base 0x42000010) 0x1000#36 ∧
      bigEndian (at' base 0x42000010).mem 0x1000 4 = 0x42000010 ∧ reservedWord 0x42000010#32 = true ∧
      opOf 0x42000010#32 = 0x10#6 ∧ (at' base 0x42000010).cp0.usable = true) ∧
    (is64 (.daddu 8 9 10) = true ∧ user.cp0.kernelMode = false ∧ needsCp0 (.daddu 8 9 10) = false) ∧
    is64 (.dmfc0 8 9) = true ∧ userCu0.cp0.kernelMode = false ∧ userCu0.cp0.usable = true := by
  unfold FetchesFrom
  decide

theorem witness_StepRunsDecodedInstruction :
    let s := at' base 0x0109502C
    s.cp0.interruptReady = false ∧ FetchesFrom s 0x1000#36 ∧
      decodeBytes [Memory.read s.mem 0x1000, Memory.read s.mem 0x1001, Memory.read s.mem 0x1002,
        Memory.read s.mem 0x1003] = .ok (.dadd 8 9 10, []) ∧ (Instr.dadd 8 9 10).wellFormed = true := by
  unfold FetchesFrom
  decide

/-- IP0 with IM0 and IP7 with IM7 pend; EXL blocks. -/
theorem witness_InterruptTakenFirst :
    InterruptPending { base with cp0 := { base.cp0 with
      status := 0x101
      cause := 0x100 } } ∧
    InterruptPending { base with cp0 := { base.cp0 with
      status := 0x8001
      cause := 0x8000 } } ∧
    ¬InterruptPending { base with cp0 := { base.cp0 with
      status := 0x8003
      cause := 0x8000 } } :=
  ⟨⟨by decide, by decide, by decide, 0, by decide⟩, ⟨by decide, by decide, by decide, 7, by decide⟩,
    fun h => absurd h.2.1 (by decide)⟩

/-- The last load is from a mapped page that may not be written. -/
theorem witness_FetchRule :
    (0xFFFFFFFF80001001#64).toNat % 4 ≠ 0 ∧ (0xFFFFFFFF80001003#64).toNat % 4 ≠ 0 ∧
    ((0x1000#64).toNat % 4 = 0 ∧ translate 0x1000#64 .fetch base = .error (.tlbLoad 0x1000#64 true)) ∧
    ((0xFFFFFFFFBFFFFFFC#64).toNat % 4 = 0 ∧
      translate 0xFFFFFFFFBFFFFFFC#64 .fetch base = .ok 0x1FFFFFFC#36) ∧
    translate 0xFFFFFFFFBFFFFFFF#64 .load base = .ok 0x1FFFFFFF#36 ∧
    translate 0x400FFC#64 .load (mapped false true) = .ok 0x5FFC#36 := by
  decide

theorem witness_FetchExceptionTaken :
    let s := { base with pc := 0xFFFFFFFF80003002#64 }
    s.cp0.interruptReady = false ∧ fetch s.pc s = .raised (.addressLoad 0xFFFFFFFF80003002#64) s :=
  ⟨by decide, rfl⟩

/-- JAL 0x2000001 and ADDIU 10, 31, -1 in its delay slot. -/
theorem witness_JalThenDelaySlot :
    let s := withWords base [(0x1000, 0x0E000001), (0x1004, 0x27EAFFFF)]
    bitAt s.cp0.status 0 = false ∧ s.branchPending = false ∧ FetchesFrom s 0x1000#36 ∧
      bigEndian s.mem 0x1000 4 = (encode (.jal 0x2000001)).toNat ∧
      translateAligned (s.pc + 4#64) .word .fetch s = .ok 0x1004#36 ∧ regionKindAt s.bus 0x1004 = .memory ∧
      bigEndian s.mem 0x1004 4 = (encode (.addiu 31 10 0xFFFF)).toNat ∧ (10#5 ≠ 31#5) := by
  unfold FetchesFrom
  decide

/-- SW 9, 4(8) onto the word after itself. -/
theorem witness_StoreSeenByNextFetch :
    let s := withRegs (withWords base [(0x1000, 0xAD090004)]) [(8, 0xFFFFFFFF80001000), (9, 0x0000000C)]
    bitAt s.cp0.status 0 = false ∧ Memory.wf s.mem = true ∧ s.branchPending = false ∧ FetchesFrom s 0x1000#36 ∧
      bigEndian s.mem 0x1000 4 = (encode (.sw 8 9 4)).toNat ∧
      translateAligned (s.pc + 4#64) .word .fetch s = .ok 0x1004#36 ∧ regionKindAt s.bus 0x1004 = .memory ∧
      translateAligned (effAddr s 8 4) .word .store s = .ok 0x1004#36 ∧
      low32u (s.reg 9) = (encode (.syscall 0)).toNat := by
  unfold FetchesFrom
  decide

/-- The largest word that fits and the next one; kernel mode for the doubleword forms. -/
theorem witness_SignedAddOverflow :
    fits 32 (low32s 0x7FFFFFFE#64 + low32s 1#64) ∧ ¬fits 32 (low32s 0x7FFFFFFF#64 + low32s 1#64) ∧
    fits 32 (low32s 0x80000001#64 - low32s 1#64) ∧ ¬fits 32 (low32s 0x80000000#64 - low32s 1#64) ∧
    base.cp0.kernelMode = true ∧
    fits 64 ((0x7FFFFFFFFFFFFFFE#64).toInt + (1#64).toInt) ∧
    ¬fits 64 ((0x7FFFFFFFFFFFFFFF#64).toInt + (1#64).toInt) ∧
    fits 64 ((0x8000000000000001#64).toInt - (1#64).toInt) ∧
    ¬fits 64 ((0x8000000000000000#64).toInt - (1#64).toInt) := by
  unfold fits
  decide

theorem witness_WrappingAdd : base.cp0.kernelMode = true := by decide

/-- Kernel mode by KSU, by EXL and by ERL. -/
theorem witness_DoublewordShifts :
    base.cp0.kernelMode = true ∧ { base.cp0 with status := 0x12 }.kernelMode = true ∧
    { base.cp0 with status := 0x14 }.kernelMode = true := by decide

theorem witness_Multiplies : base.cp0.kernelMode = true := by decide

/-- An ordinary divisor, the overflow case and a zero divisor, with 32 and with 64 bits. -/
theorem witness_DivisionResults :
    low32s 2#64 ≠ 0 ∧ (low32s 0x80000000#64 = -2 ^ 31 ∧ low32s 0xFFFFFFFF#64 = -1) ∧
    low32s 0x700000000#64 = 0 ∧ low32u 0xFFFFFFFF#64 ≠ 0 ∧ low32u 0x700000000#64 = 0 ∧
    base.cp0.kernelMode = true ∧ (0xFFFFFFFFFFFFFFFF#64).toInt ≠ 0 ∧
    ((0x8000000000000000#64).toInt = -2 ^ 63 ∧ (0xFFFFFFFFFFFFFFFF#64).toInt = -1) ∧ (0#64).toInt = 0 ∧
    (1#64).toNat ≠ 0 ∧ (0#64).toNat = 0 := by decide

/-- Every aligned load at PA 0x2000 in kernel mode; a byte load at the last byte of kseg1; a word load that is
mapped, in user mode. -/
theorem witness_AlignedLoads :
    (let s := withRegs data [(8, 0xFFFFFFFF80002000)];
      ∀ p ∈ alignedLoads 8 10 0, Allowed p.1 s ∧
        translateAligned (effAddr s 8 0) p.2.1 .load s = .ok 0x2000#36 ∧ regionKindAt s.bus 0x2000 = .memory) ∧
    (let s := withRegs base [(8, 0xFFFFFFFFC0000000)];
      Allowed (.lb 8 0 0xFFFF) s ∧
        translateAligned (effAddr s 8 0xFFFF) .byte .load s = .ok 0x1FFFFFFF#36 ∧
        regionKindAt s.bus 0x1FFFFFFF = .memory) ∧
    (let s := user;
      Allowed (.lw 0 10 0x1FFC) s ∧
        translateAligned (effAddr s 0 0x1FFC) .word .load s = .ok 0x1FFC#36 ∧
        regionKindAt s.bus 0x1FFC = .memory) := by
  unfold Allowed
  decide

/-- The first and the last byte of a unit. -/
theorem witness_UnalignedLoads :
    (let s := withRegs data [(8, 0xFFFFFFFF80002000)];
      translate (effAddr s 8 0) .load s = .ok 0x2000#36 ∧ (effAddr s 8 0).toNat % 8 = 0 ∧
        regionKindAt s.bus 0x2000 = .memory ∧ s.cp0.kernelMode = true) ∧
    (let s := withRegs data [(8, 0xFFFFFFFF80002000)];
      translate (effAddr s 8 7) .load s = .ok 0x2007#36 ∧ (effAddr s 8 7).toNat % 8 = 7 ∧
        (effAddr s 8 7).toNat % 4 = 3 ∧ regionKindAt s.bus (0x2007 - 3) = .memory ∧
        regionKindAt s.bus (0x2007 - 7) = .memory ∧ s.cp0.kernelMode = true) := by decide

theorem witness_AlignedStores :
    let s := withRegs data [(8, 0xFFFFFFFF80002000), (9, 0x0102030405060708)]
    Memory.wf s.mem = true ∧ ∀ p ∈ alignedStores 8 9 0, Allowed p.1 s ∧
      translateAligned (effAddr s 8 0) p.2 .store s = .ok 0x2000#36 ∧ regionKindAt s.bus 0x2000 = .memory := by
  unfold Allowed
  decide

theorem witness_UnalignedStores :
    let s := withRegs data [(8, 0xFFFFFFFF80002000), (9, 0x0102030405060708)]
    Memory.wf s.mem = true ∧ s.cp0.kernelMode = true ∧
      (translate (effAddr s 8 0) .store s = .ok 0x2000#36 ∧ (effAddr s 8 0).toNat % 8 = 0) ∧
      (translate (effAddr s 8 7) .store s = .ok 0x2007#36 ∧ (effAddr s 8 7).toNat % 8 = 7 ∧
        (effAddr s 8 7).toNat % 4 = 3) ∧
      ∀ j, j < 8 → regionKindAt s.bus (0x2000 + j) = .memory := by decide

theorem witness_LoadLinked :
    let s := withRegs data [(8, 0xFFFFFFFF80002000)]
    ∀ p ∈ linkedLoads 8 10 0, Allowed p.1 s ∧
      translateAligned (effAddr s 8 0) p.2.1 .load s = .ok 0x2000#36 ∧ regionKindAt s.bus 0x2000 = .memory := by
  unfold Allowed
  decide

/-- With LLbit 1 and with LLbit 0. -/
theorem witness_StoreConditional :
    ∀ s ∈ [withRegs linked [(8, 0xFFFFFFFF80002000)], withRegs data [(8, 0xFFFFFFFF80002000)]],
      Memory.wf s.mem = true ∧ (s.llbit = true ∨ s.llbit = false) ∧ regionKindAt s.bus 0x2000 = .memory ∧
      ∀ p ∈ conditionalStores 8 9 0, Allowed p.1 s ∧
        translateAligned (effAddr s 8 0) p.2 .store s = .ok 0x2000#36 := by
  unfold Allowed
  decide

theorem witness_StoreConditional_llbit : linked.llbit = true ∧ data.llbit = false := by decide

theorem witness_SyncAndCache : base.cp0.kernelMode = true ∧ userCu0.cp0.cu0 = true := by decide

/-- Address 1 is misaligned for the halfword, 4 for the doubleword forms. -/
theorem witness_MisalignedAccessRaises :
    Allowed (.lh 0 10 1) user ∧ (effAddr user 0 1).toNat % widthBytes .half ≠ 0 ∧
    Allowed (.lld 0 10 4) base ∧ (effAddr base 0 4).toNat % widthBytes .dword ≠ 0 ∧
    Allowed (.sh 0 10 0xFFFF) user ∧ (effAddr user 0 0xFFFF).toNat % widthBytes .half ≠ 0 ∧
    Allowed (.scd 0 10 4) base ∧ (effAddr base 0 4).toNat % widthBytes .dword ≠ 0 := by
  unfold Allowed
  decide

/-- A refill at VA 0 for every form, with an empty TLB in kernel mode. -/
theorem witness_TranslationFaultRaises :
    (∃ e, translate (effAddr base 0 0) .load base = .error e) ∧
    (∀ p ∈ alignedLoads 0 10 0 ++ linkedLoads 0 10 0, Allowed p.1 base ∧
      (effAddr base 0 0).toNat % widthBytes p.2.1 = 0) ∧
    (∀ p ∈ unalignedLoads 0 10 0, Allowed p.1 base) ∧
    (∃ e, translate (effAddr base 0 0) .store base = .error e) ∧
    (∀ p ∈ alignedStores 0 10 0 ++ conditionalStores 0 10 0, Allowed p.1 base ∧
      (effAddr base 0 0).toNat % widthBytes p.2 = 0) ∧
    ∀ p ∈ unalignedStores 0 10 0, Allowed p.1 base := by
  unfold Allowed
  exact ⟨⟨_, rfl⟩, by decide, by decide, ⟨_, rfl⟩, by decide, by decide⟩

/-- The first byte meets no memory; and the second, where memory ends inside the unit. -/
theorem witness_PartialStoreFault :
    (let s := withRegs { base with bus := [⟨0x2000, 0x1000, .unmapped⟩] } [(8, 0xFFFFFFFF80002000)];
      Memory.wf s.mem = true ∧ translate (effAddr s 8 1) .store s = .ok 0x2001#36 ∧
        4 - (effAddr s 8 1).toNat % 4 < 4 ∧ Allowed (.swl 8 9 1) s ∧ 0 < 4 - (effAddr s 8 1).toNat % 4 ∧
        regionKindAt s.bus (0x2001 + 0) = .unmapped) ∧
    (let s := withRegs { base with bus := [⟨0x2001, 0x1000, .unmapped⟩] } [(8, 0xFFFFFFFF80002000)];
      Memory.wf s.mem = true ∧ translate (effAddr s 8 6) .store s = .ok 0x2006#36 ∧
        (effAddr s 8 6).toNat % 8 + 1 < 8 ∧ Allowed (.sdr 8 9 6) s ∧ 1 < (effAddr s 8 6).toNat % 8 + 1 ∧
        (∀ j, j < 1 → regionKindAt s.bus (0x2006 - 6 + j) = .memory) ∧
        regionKindAt s.bus (0x2006 - 6 + 1) = .unmapped) := by
  unfold Allowed
  decide

/-- A bus with nothing at PA 0x2000 and a device at PA 0x1F00_0000 that takes only words. -/
def holes : State :=
  { linked with bus := [⟨0x2000, 0x1000, .unmapped⟩, ⟨0x1F000000, 0x100, .device [.word]⟩] }

/-- A load, an unaligned load, a store, a conditional store and a fetch at PA 0x2000; and a halfword load and
store and an unaligned doubleword load from the device. -/
theorem witness_BusFaultRaises :
    (let s := withRegs holes [(8, 0xFFFFFFFF80002000)];
      translateAligned (effAddr s 8 0) .word .load s = .ok 0x2000#36 ∧
        busRead 0x2000#36 .word (.read 0x2000#36 .word) s = (.unmapped, s) ∧
        translate (effAddr s 8 3) .load s = .ok 0x2003#36 ∧
        BitVec.ofNat 36 (0x2003 / widthBytes .word * widthBytes .word) = 0x2000#36 ∧
        translateAligned (effAddr s 8 0) .word .store s = .ok 0x2000#36 ∧ s.llbit = true ∧
        busWrite 0x2000#36 .word 0 s = (.unmapped, s)) ∧
    (let s := { holes with pc := 0xFFFFFFFF80002000#64 };
      s.cp0.interruptReady = false ∧ translateAligned s.pc .word .fetch s = .ok 0x2000#36 ∧
        busRead 0x2000#36 .word (.fetch 0x2000#36) s = (.unmapped, s)) ∧
    (let s := withRegs holes [(8, 0xFFFFFFFFBF000000)];
      translateAligned (effAddr s 8 0) .half .load s = .ok 0x1F000000#36 ∧
        busRead 0x1F000000#36 .half (.read 0x1F000000#36 .half) s = (.deviceMisaligned, s) ∧
        busRead 0x1F000000#36 .dword (.read 0x1F000000#36 .dword) s = (.deviceMisaligned, s) ∧
        busWrite 0x1F000000#36 .half 0 s = (.deviceMisaligned, s)) := by decide

/-- A device that takes the access and one that does not. -/
theorem witness_DeviceAccess :
    let s := withRegs holes [(8, 0xFFFFFFFFBF000000)]
    regionKindAt s.bus 0x1F000000 = .device [.word] ∧ Allowed (.lw 8 10 0) s ∧ Allowed (.ld 8 10 0) s ∧
      translateAligned (effAddr s 8 0) .word .load s = .ok 0x1F000000#36 ∧ Width.word ∈ [Width.word] ∧
      translateAligned (effAddr s 8 0) .dword .load s = .ok 0x1F000000#36 ∧ Width.dword ∉ [Width.word] ∧
      translateAligned (effAddr s 8 0) .word .store s = .ok 0x1F000000#36 ∧
      translateAligned (effAddr s 8 0) .byte .store s = .ok 0x1F000000#36 ∧ Width.byte ∉ [Width.word] := by
  unfold Allowed
  decide

/-- The ends of the segments and the three modes. -/
theorem witness_SegmentRules :
    (0x80000000#64 ≠ word32 0x80000000) ∧
    (∀ low ∈ [0x00000000, 0x7FFFFFFF, 0x80000000, 0xBFFFFFFF, 0xC0000000, 0xDFFFFFFF, 0xE0000000, 0xFFFFFFFF],
      ((word32 low).toNat % 2 ^ 32 : Nat) = low) ∧
    base.cp0.kernelMode = true ∧ user.cp0.userMode = true ∧ user.cp0.kernelMode = false ∧
    supervisor.cp0.userMode = false ∧ supervisor.cp0.kernelMode = false := by decide

/-- A TLB of an empty slot and an entry that maps VA 0x0040_0000. -/
def small (d v : Bool) : State :=
  { base with tlb := [TlbEntry.zero, entry 0 0x200 0 false (half 5 d v) (half 6 d v)] }

theorem small_first (d v : Bool) (P : TlbEntry → Prop) (h : P TlbEntry.zero) :
    ∀ m e', m < 1 → (small d v).tlb[m]? = some e' → P e'
  | 0, _, _, he => Option.some.inj he ▸ h

/-- No match at VA 0, and the second slot matching at VA 0x0040_0000 with V = 0, D = 0 and both set. -/
theorem witness_TlbLookupRule :
    (∀ e ∈ (small true true).tlb, ¬(e.present = true ∧ e.r = (0#64).extractLsb' 62 2 ∧
      ∀ i, i < 27 → e.mask.getLsbD i = false → e.vpn2.getLsbD i = (0#64).getLsbD (13 + i))) ∧
    ∀ d v, ((small d v).tlb[1]? = some (entry 0 0x200 0 false (half 5 d v) (half 6 d v)) ∧
      (entry 0 0x200 0 false (half 5 d v) (half 6 d v)).present = true ∧
      (∀ i, i < 27 → (0x200#27).getLsbD i = (0x400000#64).getLsbD (13 + i)) ∧
      (0#8 = (small d v).cp0.entryHi.extractLsb' 0 8) ∧
      ∀ m e', m < 1 → (small d v).tlb[m]? = some e' → ¬e'.present = true) :=
  ⟨by decide, fun d v => ⟨rfl, rfl, by decide, rfl, small_first d v _ (by decide)⟩⟩

/-- The first slot, one without storage, and the last. -/
theorem witness_MoveFromCp0 :
    ((0#5, word64 (0#32).toInt) ∈ [((0#5, word64 base.cp0.index.toInt) : RegNum × DWord)]) ∧
    ((31#5, 0#64) ∈ [((30#5, base.cp0.errorEpc) : RegNum × DWord), (31#5, 0#64)]) ∧
    base.cp0.kernelMode = true ∧ userCu0.cp0.cu0 = true := by decide

theorem witness_MoveToCp0 :
    (0#5, { base.cp0 with index := 0x3F }) ∈
      [((0#5, { base.cp0 with index := (base.cp0.index &&& 0xFFFFFFC0#32) ||| (0xFFFFFFFF#32 &&& 0x3F#32) }) :
        RegNum × Cp0)] ∧ base.cp0.kernelMode = true ∧ userCu0.cp0.cu0 = true := by decide

/-- The masks within 0, within 0x0000_6000 and within all ones; and both limits of Wired. -/
theorem witness_PageMaskWiredCompareWrites :
    (let legal : List Nat := [0x000, 0x003, 0x00F, 0x03F, 0x0FF, 0x3FF, 0xFFF]
      let inside : Nat → DWord → Prop := fun l v =>
        l ∈ legal ∧ ∀ i, i < 12 → l.testBit i = true → v.getLsbD (13 + i) = true
      ∀ p ∈ ([(0x000, 0x0), (0x003, 0x6000), (0xFFF, 0xFFFFFFFFFFFFFFFF)] : List (Nat × DWord)),
        inside p.1 p.2 ∧ ∀ l' ∈ legal, inside l' p.2 → l' ≤ p.1) ∧
    min (63 % 64) (base.tlbSize - 1) = 63 ∧ min (63 % 64) ((small true true).tlbSize - 1) = 1 ∧
    base.cp0.kernelMode = true ∧ userCu0.cp0.cu0 = true := by decide

theorem witness_EretReturns : base.cp0.kernelMode = true ∧ userCu0.cp0.cu0 = true := by decide

/-- Both outcomes, at the value where they meet. -/
theorem witness_ConditionalTraps :
    decide ((5#64).toInt ≤ (5#64).toInt) = true ∧ decide ((5#64).toInt < (5#64).toInt) = false := by decide

/-- An entry in the last slot, and a slot number that the TLB does not have. -/
theorem witness_TlbReadIndexed :
    (let s := { base with cp0 := { base.cp0 with index := 0x8000003F#32 } };
      s.cp0.kernelMode = true ∧ s.tlb[s.cp0.index.toNat % 64]? = some TlbEntry.zero) ∧
    (let s := { small true true with cp0 := { base.cp0 with index := 2#32 } };
      s.cp0.kernelMode = true ∧ s.tlbSize ≤ s.cp0.index.toNat % 64) := by decide

/-- Kernel mode and CU0; Random at Wired and one above it; Index and Random one past the last slot. -/
theorem witness_TlbWrites :
    (base.cp0.kernelMode = true ∧ userCu0.cp0.cu0 = true) ∧
    ((wired62 62).cp0.kernelMode = true ∧
      (wired62 62).cp0.random.toNat % 64 ≤ (wired62 62).cp0.wired.toNat % 64) ∧
    ((wired62 63).cp0.kernelMode = true ∧
      ¬(wired62 63).cp0.random.toNat % 64 ≤ (wired62 63).cp0.wired.toNat % 64) ∧
    let s := { small true true with cp0 := { base.cp0 with index := 2, random := 2 } }
    s.cp0.kernelMode = true ∧ s.tlbSize ≤ s.cp0.index.toNat % 64 ∧ s.tlbSize ≤ s.cp0.random.toNat % 64 := by
  decide

/-- The second slot matches, and none does. -/
theorem witness_TlbProbe :
    (let s := { small true true with cp0 := { base.cp0 with entryHi := 0x400000#64 } };
      s.cp0.kernelMode = true ∧ s.tlb[1]? = some (entry 0 0x200 0 false (half 5 true true) (half 6 true true)) ∧
        (∀ i, i < 27 → (0x200#27).getLsbD i = s.cp0.entryHi.getLsbD (13 + i)) ∧
        0#8 = s.cp0.entryHi.extractLsb' 0 8 ∧
        ∀ m e', m < 1 → s.tlb[m]? = some e' → ¬e'.present = true) ∧
    ∀ e ∈ base.tlb, ¬e.present = true :=
  ⟨⟨by decide, rfl, by decide, by decide, small_first true true _ (by decide)⟩, by decide⟩

/-- The state of the TLBWI row is sound. -/
theorem staged_sound : Inv staged where
  zero := by decide
  tlbSize := by decide
  countIncrement := by decide
  random := by decide
  slot := by decide
  mem := by decide
  masks := by decide
  cp0 := ⟨by decide, by decide, by decide, by decide, by decide, by decide, by decide, by decide, by decide,
    by decide, by decide⟩

theorem witness_TlbWriteThenRead :
    Inv staged ∧ staged.cp0.kernelMode = true ∧ staged.cp0.index.toNat % 64 < staged.tlbSize ∧
    staged.cp0.entryLo0.getLsbD 0 ≠ staged.cp0.entryLo1.getLsbD 0 :=
  ⟨staged_sound, by decide, by decide, by decide⟩

/-- An instruction that is not a TLB write, and a step that fetches no instruction at all. -/
theorem witness_OnlyTlbWritesChangeTlb :
    (exec (.sync 0) base = .next (Machine.sequence .sequential base) ∧ Instr.sync 0 ≠ .tlbwi ∧
      Instr.sync 0 ≠ .tlbwr) ∧
    (let s := { base with pc := 0xFFFFFFFF80003002#64 };
      (∃ t, step s = .next t) ∧ ∀ u, fetchDecode s ≠ .instr .tlbwi u ∧ fetchDecode s ≠ .instr .tlbwr u) :=
  ⟨⟨rfl, by decide, by decide⟩, ⟨_, rfl⟩, fun _ => ⟨nofun, nofun⟩⟩

theorem witness_Cp0UnusableRaises :
    needsCp0 .eret = true ∧ needsCp0 (.cache 0 0 0) = true ∧ user.cp0.usable = false ∧
    supervisor.cp0.usable = false := by decide

theorem witness_ModesFromStatus :
    user.cp0.kernelMode = false ∧ supervisor.cp0.kernelMode = false := by decide

theorem witness_HandlerRunsInKernelMode : user.cp0.exl = false := by decide

theorem witness_EretReplays : user.cp0.exl = false ∧ base.cp0.exl = false := by decide

theorem witness_ResetState :
    construct 0 1#32 [] [] = none ∧ construct 65 1#32 [] [] = none ∧ construct 1 0#32 [] [] = none ∧
    (construct 1 0xFFFFFFFF#32 [] []).isSome = true ∧ (construct 64 1#32 [] []).isSome = true := by decide

theorem witness_StepKeepsInvariant : Inv staged ∧ (one staged 0xF).isSome = true :=
  ⟨staged_sound, by decide⟩

theorem witness_HostKeepsInvariant : Inv staged := staged_sound

end Sys2Proof.Tests
end

section
/-! What reset and construction give: the state that `State.resetWith` builds, which parameters `construct`
refuses, and from these the statement about reset (70 R500, R502; 00 R5, R6). -/

namespace Sys2Proof.Machine

-- The state that reset builds.

@[simp] theorem resetWith_reg (n : Nat) (inc : Word) (m : Memory) (bus : List Region) (k : Nat) (r : RegNum) :
    (State.resetWith n inc m bus k).reg r = 0#64 := by
  by_cases h : r = 0#5
  · rw [h, reg_zero]
  · rw [reg_eq _ _ h]
    exact Vector.getElem_replicate r.isLt

@[simp] theorem resetWith_tlb_length (n : Nat) (inc : Word) (m : Memory) (bus : List Region) (k : Nat) :
    (State.resetWith n inc m bus k).tlb.length = n :=
  List.length_replicate

/-- Every entry is as 10 R71 says, whatever TLB_SIZE is. -/
theorem eq_zero_of_mem_resetWith_tlb {n : Nat} {inc : Word} {m : Memory} {bus : List Region} {k : Nat}
    {e : TlbEntry} (h : e ∈ (State.resetWith n inc m bus k).tlb) : e = TlbEntry.zero :=
  List.eq_of_mem_replicate h

/-- A state that reset built is a fixed point of reset: it holds the parameters it was built from. -/
@[simp] theorem hostReset_resetWith (n : Nat) (inc : Word) (m : Memory) (bus : List Region) (k : Nat) :
    hostReset (State.resetWith n inc m bus k) = State.resetWith n inc m bus k :=
  congrArg (State.resetWith · inc m bus k) (resetWith_tlb_length n inc m bus k)

-- Construction.

theorem paramsWellFormed_iff (n : Nat) (inc : Word) :
    paramsWellFormed n inc = true ↔ 1 ≤ n ∧ n ≤ 64 ∧ inc ≠ 0#32 := by
  simp [paramsWellFormed, and_assoc]

theorem construct_eq_some_iff (n : Nat) (inc : Word) (m : Memory) (bus : List Region) (s : State) :
    construct n inc m bus = some s ↔
      paramsWellFormed n inc = true ∧ State.resetWith n inc m bus 0 = s := by
  simp [construct]

/-- Construction fails exactly for a parameter out of range (00 R6). -/
theorem construct_eq_none_iff (n : Nat) (inc : Word) (m : Memory) (bus : List Region) :
    construct n inc m bus = none ↔ n = 0 ∨ 64 < n ∨ inc = 0#32 := by
  have hnone : construct n inc m bus = none ↔ ¬ paramsWellFormed n inc = true := by simp [construct]
  rw [hnone, paramsWellFormed_iff, not_and_or, not_and_or, not_le, not_le, Nat.lt_one_iff, not_ne_iff]

/-- Settles O57: reset is `State.resetWith` at the state's own parameters, memory, bus and counter, so each field
is read off that state; a constructed core is such a state too, hence a fixed point of reset. -/
theorem resetState : Obligations.ResetState := by
  refine ⟨fun s => ?fields, hostReset_resetWith .., resetWith_tlb_length .., rfl,
    fun n inc m bus => ⟨construct_eq_none_iff n inc m bus, ?constructed⟩⟩
  case fields =>
    exact ⟨fun _ => resetWith_reg .., Vector.getElem_replicate _, rfl, rfl, rfl, rfl, rfl, rfl, rfl,
      resetWith_tlb_length .., fun _ => eq_zero_of_mem_resetWith_tlb, rfl, rfl, rfl, rfl, rfl⟩
  case constructed =>
    intro s hs
    obtain ⟨-, rfl⟩ := (construct_eq_some_iff n inc m bus s).mp hs
    exact ⟨(hostReset_resetWith ..).symm, resetWith_tlb_length .., rfl, rfl, rfl⟩

end Sys2Proof.Machine
end

section
/-! Bit fields as masks: what a field write leaves of the bits under a mask, and a field copied from
another register as a merge of the two registers (10 R41). -/

namespace Sys2Proof.Machine

/-- The ones of the field `lo+len-1:lo`, which `setField` clears before it writes. -/
def fieldMask (n lo len : Nat) : BitVec n := (BitVec.allOnes len).setWidth n <<< lo

theorem getLsbD_fieldMask (n lo len i : Nat) :
    (fieldMask n lo len).getLsbD i = (decide (i < n) && decide (lo ≤ i ∧ i < lo + len)) := by
  unfold fieldMask
  rw [BitVec.getLsbD_shiftLeft, BitVec.getLsbD_setWidth, BitVec.getLsbD_allOnes]
  by_cases hlo : lo ≤ i
  · by_cases hn : i < n
    · have hlen : i - lo < len ↔ i < lo + len := by omega
      have hin : i - lo < n := by omega
      simp [hn, hlo, hin, hlen]
    · simp [hn]
  · have hlt : i < lo := by omega
    simp [hlo, hlt]

/-- A field write keeps the bits under a mask that has no one in the field. -/
theorem setField_and_of_disjoint {n len : Nat} (w : BitVec n) (lo : Nat) (v : BitVec len) {m : BitVec n}
    (h : m &&& fieldMask n lo len = 0#n) : setField w lo v &&& m = w &&& m := by
  apply BitVec.eq_of_getLsbD_eq
  intro i hi
  rw [BitVec.getLsbD_and, BitVec.getLsbD_and, getLsbD_setField]
  by_cases hf : lo ≤ i ∧ i < lo + len
  · have hm : m.getLsbD i = false := by
      have hbit := congrArg (·.getLsbD i) h
      rwa [BitVec.getLsbD_and, getLsbD_fieldMask, decide_eq_true hi, decide_eq_true hf, Bool.and_true,
        Bool.and_true, BitVec.getLsbD_zero] at hbit
    rw [hm, Bool.and_false, Bool.and_false]
  · rw [if_neg hf, decide_eq_true hi, Bool.true_and]

/-- Writing zeros into a field clears the bits of its mask. -/
theorem setField_zero {n : Nat} (w : BitVec n) (lo len : Nat) :
    setField w lo (0#len) = w &&& ~~~fieldMask n lo len := by
  simp [setField, fieldMask]

/-- Copying a field of `v` into `w` merges the two under the mask of the field. -/
theorem setField_getField {n m : Nat} (w : BitVec n) (v : BitVec m) (lo len : Nat) :
    setField w lo (getField v lo len) =
      (w &&& ~~~fieldMask n lo len) ||| (v.setWidth n &&& fieldMask n lo len) := by
  apply BitVec.eq_of_getLsbD_eq
  intro i hi
  rw [getLsbD_setField, BitVec.getLsbD_or, BitVec.getLsbD_and, BitVec.getLsbD_and, BitVec.getLsbD_not,
    getLsbD_fieldMask, BitVec.getLsbD_setWidth]
  by_cases hf : lo ≤ i ∧ i < lo + len
  · have hlen : i - lo < len := by omega
    rw [getLsbD_getField, decide_eq_true hlen, Nat.add_sub_cancel' hf.1]
    simp [hi, hf]
  · simp [hi, hf]

/-- The low bits of a value, zero-extended, are the value under their mask. -/
theorem zext_getField_zero (v : DWord) (len : Nat) :
    zext (getField v 0 len) = v &&& fieldMask 64 0 len := by
  apply BitVec.eq_of_getLsbD_eq
  intro i hi
  rw [zext, BitVec.getLsbD_setWidth, getLsbD_getField, BitVec.getLsbD_and, getLsbD_fieldMask]
  simp [hi, Bool.and_comm]

end Sys2Proof.Machine
end

section
/-! PageMask: which mask `legalize` takes (10 R45). -/

namespace Sys2Proof.Machine

/-- In a list that falls, the first element with a property is the largest one. -/
theorem le_of_find?_eq_some {n : Nat} {p : BitVec n → Bool} {l : List (BitVec n)} {b : BitVec n}
    (hl : l.Pairwise (fun x y => y ≤ x)) (hb : l.find? p = some b) {a : BitVec n} (ha : a ∈ l)
    (hp : p a = true) : a ≤ b := by
  obtain ⟨-, before, after, rfl, hbefore⟩ := List.find?_eq_some_iff_append.mp hb
  rcases List.mem_append.mp ha with ha | ha
  · exact absurd hp (by simpa using hbefore a ha)
  · rcases List.mem_cons.mp ha with rfl | ha
    · exact BitVec.le_refl _
    · exact (List.pairwise_cons.mp (List.pairwise_append.mp hl).2.1).1 a ha

/-- `legalize` finds a mask: the last candidate, 0, is within every value. -/
theorem find?_legalMasks (m : BitVec 12) :
    legalMasks.find? (fun l => l &&& ~~~m == 0#12) = some (legalize m) := by
  have hsome : (legalMasks.find? (fun l => l &&& ~~~m == 0#12)).isSome := by
    rw [List.find?_isSome]
    exact ⟨0#12, by decide, by simp⟩
  obtain ⟨l, hl⟩ := Option.isSome_iff_exists.mp hsome
  rw [legalize, hl, Option.getD_some]

theorem legalize_mem (m : BitVec 12) : legalize m ∈ legalMasks :=
  List.mem_of_find?_eq_some (find?_legalMasks m)

theorem legalize_within (m : BitVec 12) : legalize m &&& ~~~m = 0#12 := by
  simpa using List.find?_some (find?_legalMasks m)

theorem le_legalize {m l : BitVec 12} (hl : l ∈ legalMasks) (hm : l &&& ~~~m = 0#12) : l ≤ legalize m :=
  le_of_find?_eq_some (by decide) (find?_legalMasks m) hl (by simpa using hm)

end Sys2Proof.Machine
end

section
/-! The invariant of CP0 (10 R42 to R65; 60 R451): every update of the CP0 registers keeps `Cp0Inv`, and all but
the writes of Wired and Random keep those two registers. -/

namespace Sys2Proof.Safety

open Sys2Proof.Machine

variable {c : Cp0}

-- Register values.

theorem zext_getField_30_and (v : DWord) : zext (getField v 0 30) &&& 0xFFFFFFFFC0000000#64 = 0#64 := by
  rw [zext_getField_zero, BitVec.and_assoc]
  exact BitVec.and_zero

theorem entryLoOf_and (x : TlbHalf) (g : Bool) : entryLoOf x g &&& 0xFFFFFFFFC0000000#64 = 0#64 := by
  unfold entryLoOf
  rw [setField_and_of_disjoint _ _ _ (by decide), setField_and_of_disjoint _ _ _ (by decide),
    setField_and_of_disjoint _ _ _ (by decide), setField_and_of_disjoint _ _ _ (by decide),
    setField_and_of_disjoint _ _ _ (by decide)]
  exact BitVec.zero_and

theorem entryHiOf_and (r : BitVec 2) (vpn2 : BitVec 27) (asid : BitVec 8) :
    entryHiOf r vpn2 asid &&& 0x3FFFFF0000001F00#64 = 0#64 := by
  unfold entryHiOf
  rw [setField_and_of_disjoint _ _ _ (by decide), setField_and_of_disjoint _ _ _ (by decide),
    setField_and_of_disjoint _ _ _ (by decide)]
  exact BitVec.zero_and

/-- `Cp0Inv` lists the PageMask values of the legal masks in rising order (10 R45). -/
theorem pageMask_mem_iff (w : Word) :
    w ∈ [0x00000000#32, 0x00006000#32, 0x0001E000#32, 0x0007E000#32, 0x001FE000#32, 0x007FE000#32,
      0x01FFE000#32] ↔ ∃ m ∈ legalMasks, pageMaskOf m = w := by
  have hlist : [0x00000000#32, 0x00006000#32, 0x0001E000#32, 0x0007E000#32, 0x001FE000#32, 0x007FE000#32,
      0x01FFE000#32] = legalMasks.reverse.map pageMaskOf := by decide
  rw [hlist, List.mem_map]
  simp only [List.mem_reverse]

theorem pageMaskOf_mem {m : BitVec 12} (h : m ∈ legalMasks) :
    pageMaskOf m ∈ [0x00000000#32, 0x00006000#32, 0x0001E000#32, 0x0007E000#32, 0x001FE000#32,
      0x007FE000#32, 0x01FFE000#32] :=
  (pageMask_mem_iff _).mpr ⟨m, h, rfl⟩

/-- The Mask field of a legal PageMask is a legal mask. -/
theorem Cp0Inv.mask_mem (h : Cp0Inv c) : c.mask ∈ legalMasks := by
  obtain ⟨m, hm, heq⟩ := (pageMask_mem_iff _).mp h.pageMask
  rw [Cp0.mask, ← heq, pageMaskOf, getField_setField_same _ _ _ (by decide)]
  exact hm

/-- A slot number of a TLB of at most 64 entries has no bit above the Index field. -/
theorem ofNat_slot_and {n : Nat} (h : n < 64) : BitVec.ofNat 32 n &&& 0x7FFFFFC0#32 = 0#32 := by
  have key : ∀ k : Fin 64, BitVec.ofNat 32 k &&& 0x7FFFFFC0#32 = 0#32 := by decide
  exact key ⟨n, h⟩

-- The updates.

theorem Cp0Inv.setExl (h : Cp0Inv c) (b : Bool) : Cp0Inv (c.setExl b) :=
  { h with status := (setField_and_of_disjoint _ _ _ (by decide)).trans h.status }

/-- A write to Cause outside its reserved bits and outside ExcCode. -/
theorem Cp0Inv.causeField (h : Cp0Inv c) {len : Nat} (lo : Nat) (v : BitVec len)
    (hres : 0x4FFF0083#32 &&& fieldMask 32 lo len = 0#32) (hcode : 7 ≤ lo) :
    Cp0Inv { c with cause := setField c.cause lo v } :=
  { h with
    cause := (setField_and_of_disjoint _ _ _ hres).trans h.cause
    code := by
      rw [getField_setField_of_disjoint _ _ _ _ _ (.inl hcode)]
      exact h.code }

theorem Cp0Inv.setIp7 (h : Cp0Inv c) (b : Bool) : Cp0Inv (c.setIp7 b) :=
  h.causeField 15 (bit b) (by decide) (by decide)

theorem Cp0Inv.write (h : Cp0Inv c) (tlbSize : Nat) (n : RegNum) (v : DWord) :
    Cp0Inv (c.write tlbSize n v) := by
  unfold Cp0.write
  split
  case h_1 => exact { h with index := (setField_and_of_disjoint _ _ _ (by decide)).trans h.index }
  case h_2 => exact { h with entryLo0 := zext_getField_30_and v }
  case h_3 => exact { h with entryLo1 := zext_getField_30_and v }
  case h_4 => exact { h with context := (setField_and_of_disjoint _ _ _ (by decide)).trans h.context }
  case h_5 => exact { h with pageMask := pageMaskOf_mem (legalize_mem _) }
  case h_8 => exact { h with entryHi := entryHiOf_and _ _ _ }
  case h_9 =>
    have hcompare : Cp0Inv { c with compare := lowWord v } := { h with }
    exact hcompare.setIp7 false
  case h_10 => exact { h with status := (BitVec.and_assoc _ _ _).trans BitVec.and_zero }
  case h_11 => exact h.causeField 8 _ (by decide) (by decide)
  case h_13 => exact { h with config := setField_and_of_disjoint _ _ _ (by decide) }
  case h_15 => exact { h with xContext := (setField_and_of_disjoint _ _ _ (by decide)).trans h.xContext }
  -- No bit of the registers left over is reserved.
  all_goals exact { h with }

theorem Cp0Inv.decomposeEntry (h : Cp0Inv c) {e : TlbEntry} (he : e.mask ∈ legalMasks) :
    Cp0Inv (decomposeEntry c e) :=
  { h with
    entryHi := entryHiOf_and _ _ _
    pageMask := pageMaskOf_mem he
    entryLo0 := entryLoOf_and _ _
    entryLo1 := entryLoOf_and _ _ }

theorem Cp0Inv.noteProbe_some (h : Cp0Inv c) {n : Nat} (hn : n < 64) : Cp0Inv (c.noteProbe (some n)) :=
  { h with index := ofNat_slot_and hn }

theorem Cp0Inv.noteProbe_none (h : Cp0Inv c) : Cp0Inv (c.noteProbe none) :=
  { h with index := (setField_and_of_disjoint _ _ _ (by decide)).trans h.index }

theorem Cp0Inv.tick (h : Cp0Inv c) (increment : Word) : Cp0Inv (c.tick increment) := by
  have hcount : Cp0Inv { c with count := c.count + increment } := { h with }
  unfold Cp0.tick
  dsimp only
  split
  · exact hcount.setIp7 true
  · exact hcount

/-- Every exception has a code of the table (60 R450, R451). -/
theorem code_le (e : Exn) : e.code.toNat ≤ 13 := by
  cases e <;> exact Nat.le_of_ble_eq_true rfl

theorem Cp0Inv.causeAfter (h : Cp0Inv c) (e : Exn) (exl slot : Bool) :
    Cp0Inv { c with cause := causeAfter c.cause e exl slot } := by
  have hcode : Cp0Inv { c with cause := setField c.cause 2 e.code } :=
    { h with
      cause := (setField_and_of_disjoint _ _ _ (by decide)).trans h.cause
      code := by
        rw [getField_setField_same _ _ _ (by decide)]
        exact code_le e }
  have hce := hcode.causeField 28 e.ce (by decide) (by decide)
  unfold Machine.causeAfter
  dsimp only
  split
  · exact hce
  · exact hce.causeField 31 _ (by decide) (by decide)

theorem Cp0Inv.noteTlbFault (h : Cp0Inv c) (va : DWord) : Cp0Inv (c.noteTlbFault va) :=
  { h with
    entryHi := by
      refine Eq.trans ?_ h.entryHi
      exact (setField_and_of_disjoint _ _ _ (by decide)).trans (setField_and_of_disjoint _ _ _ (by decide))
    context := (setField_and_of_disjoint _ _ _ (by decide)).trans h.context
    xContext := by
      refine Eq.trans ?_ h.xContext
      exact (setField_and_of_disjoint _ _ _ (by decide)).trans (setField_and_of_disjoint _ _ _ (by decide)) }

theorem Cp0Inv.enter (h : Cp0Inv c) (e : Exn) (pc : DWord) (slot : Bool) : Cp0Inv (c.enter e pc slot) := by
  have hcause := h.causeAfter e c.exl slot
  have hbase : Cp0Inv ({ c with
      cause := Machine.causeAfter c.cause e c.exl slot
      epc := epcAfter c.epc pc c.exl slot
      badVAddr := e.badVAddr.getD c.badVAddr } : Cp0) := { hcause with }
  unfold Cp0.enter
  dsimp only
  split
  · exact (hbase.setExl true).noteTlbFault _
  · exact hbase.setExl true

-- Wired and Random (10 R43, R47; 45 R402).

/-- Random lies between Wired and TLB_SIZE. -/
def RandomInRange (c : Cp0) (tlbSize : Nat) : Prop :=
  c.wired.toNat ≤ c.random.toNat ∧ c.random.toNat < tlbSize

theorem randomInRange_write {k : Nat} (hk : 1 ≤ k ∧ k ≤ 64) (h : RandomInRange c k) (n : RegNum)
    (v : DWord) : RandomInRange (c.write k n v) k := by
  unfold Cp0.write
  split
  case h_6 =>
    simp only [RandomInRange, Cp0.writeWired, BitVec.toNat_ofNat]
    omega
  all_goals exact h

theorem randomInRange_tick {k : Nat} (h : RandomInRange c k) (increment : Word) :
    RandomInRange (c.tick increment) k := by
  unfold Cp0.tick
  dsimp only
  split <;> exact h

theorem randomInRange_enter {k : Nat} (h : RandomInRange c k) (e : Exn) (pc : DWord) (slot : Bool) :
    RandomInRange (c.enter e pc slot) k := by
  unfold Cp0.enter
  dsimp only
  split <;> exact h

theorem randomInRange_advanceRandom {k : Nat} (hk : 1 ≤ k ∧ k ≤ 64) (h : RandomInRange c k) :
    RandomInRange (c.advanceRandom k) k := by
  obtain ⟨hle, hlt⟩ := h
  simp only [RandomInRange, Cp0.advanceRandom, Cp0.randomField, Cp0.wiredField, toNat_lowField6,
    BitVec.toNat_ofNat]
  split <;> omega

end Sys2Proof.Safety
end

section
/-! The invariant of the state (10 R87): reset establishes `Inv` and every named update keeps it. -/

namespace Sys2Proof.Safety

open Sys2Proof.Machine

variable {s : State}

/-- `Inv` lists the legal masks in rising order. -/
theorem mem_legalMasks_iff (m : BitVec 12) :
    m ∈ [0x000#12, 0x003#12, 0x00F#12, 0x03F#12, 0x0FF#12, 0x3FF#12, 0xFFF#12] ↔ m ∈ legalMasks :=
  List.mem_reverse (as := legalMasks)

theorem Inv.setReg (h : Inv s) (i : RegNum) (v : DWord) : Inv (s.setReg i v) := by
  by_cases hi : i = 0#5
  · rw [hi, setReg_zero]
    exact h
  · have hne : i.toNat ≠ 0 := fun h0 => hi (BitVec.eq_of_toNat_eq h0)
    have hset : s.setReg i v = { s with regs := s.regs.set i.toNat v i.isLt } := if_neg hi
    rw [hset]
    exact { h with zero := (Vector.getElem_set_ne i.isLt (by decide) hne).trans h.zero }

theorem Inv.setCp0 (h : Inv s) {c : Cp0} (hc : Cp0Inv c) (hr : RandomInRange c s.tlbSize) :
    Inv (s.setCp0 c) :=
  { h with random := hr, cp0 := hc }

theorem Inv.setTlb_compose (h : Inv s) (n : Nat) : Inv (s.setTlb n (composeEntry s.cp0)) :=
  { h with
    tlbSize := by rw [setTlb_tlbSize]; exact h.tlbSize
    random := by rw [setTlb_tlbSize]; exact h.random
    masks := by
      intro e he
      rcases List.mem_or_eq_of_mem_set he with hold | rfl
      · exact h.masks e hold
      · exact (mem_legalMasks_iff _).mpr h.cp0.mask_mem }

/-- A retired instruction leaves a pending branch only together with a delay slot (10 R84, R87). -/
theorem Inv.sequence (h : Inv s) : ∀ f : Flow, Inv (sequence f s)
  | .sequential => { h with slot := nofun }
  | .return _ => { h with slot := nofun }
  | .branch _ _ => { h with slot := fun _ => rfl }
  | .branchLikely _ _ => { h with slot := id }

theorem Inv.takeException (h : Inv s) (e : Exn) : Inv (takeException e s) :=
  { h with
    random := randomInRange_enter h.random e _ _
    slot := nofun
    cp0 := h.cp0.enter e _ _ }

/-- Every update that an instruction or a step makes keeps a sound state sound. -/
theorem stepClosed_inv : StepClosed Inv where
  device _ h := { h with }
  store _ _ _ _ h := { h with mem := wf_writeBytes _ _ _ _ h.mem }
  setReg _ i v h := h.setReg i v
  setHiLo _ _ _ h := { h with }
  setLlbit _ _ h := { h with }
  llAddr _ _ h := h.setCp0 { h.cp0 with } h.random
  write _ n v h := h.setCp0 (h.cp0.write _ n v) (randomInRange_write h.tlbSize h.random n v)
  clearExl _ h := h.setCp0 (h.cp0.setExl false) h.random
  decompose _ e he h := h.setCp0 (h.cp0.decomposeEntry ((mem_legalMasks_iff _).mp (h.masks e he))) h.random
  probeHit _ _ hn h := h.setCp0 (h.cp0.noteProbe_some (Nat.lt_of_lt_of_le hn h.tlbSize.2)) h.random
  probeMiss _ h := h.setCp0 h.cp0.noteProbe_none h.random
  sequence _ f h := h.sequence f
  take _ e h := h.takeException e
  tick s h := h.setCp0 (h.cp0.tick s.countIncrement) (randomInRange_tick h.random _)
  compose _ n h := h.setTlb_compose n
  advanceRandom _ h := h.setCp0 { h.cp0 with } (randomInRange_advanceRandom h.tlbSize h.random)

end Sys2Proof.Safety

open Sys2Proof Sys2Proof.Machine Sys2Proof.Safety

/-- Settles O59: every named update keeps `Inv` (`stepClosed_inv`), so every step does. -/
theorem stepKeepsInvariant : Obligations.StepKeepsInvariant :=
  fun _ t h hstep => step_closed stepClosed_inv h t hstep

/-- The CP0 registers after reset are sound. -/
theorem cp0Inv_reset : Cp0Inv Cp0.reset :=
  ⟨by decide, by decide, by decide, by decide, by decide, by decide, by decide, by decide, by decide,
    by decide, by decide⟩

/-- Settles O58: reset leaves every register at a legal value and every TLB entry 0. -/
theorem resetIsSound : Obligations.ResetIsSound where
  zero := Vector.getElem_replicate _
  tlbSize := by decide
  countIncrement := by decide
  random := by decide
  slot := nofun
  mem := reset_mem_wf
  masks e he := by
    rw [eq_zero_of_mem_resetWith_tlb he]
    decide
  cp0 := cp0Inv_reset
end

section
/-! The TLB (10 R72): only TLBWI and TLBWR have an update that changes it. -/

namespace Sys2Proof.Machine

/-- All updates but those of the TLB writes keep the TLB. -/
theorem instrClosed_tlb (l : List TlbEntry) : InstrClosed (fun t => t.tlb = l) where
  device _ h := h
  store _ _ _ _ h := h
  setReg s i v h := (setReg_tlb s i v).trans h
  setHiLo _ _ _ h := h
  setLlbit _ _ h := h
  llAddr _ _ h := h
  write _ _ _ h := h
  clearExl _ h := h
  decompose _ _ _ h := h
  probeHit _ _ _ h := h
  probeMiss _ h := h
  sequence s f h := (sequence_tlb f s).trans h
  take _ _ h := h
  tick _ h := h

end Sys2Proof.Machine

open Sys2Proof Sys2Proof.Machine Sys2Proof.Safety

/-- Settles O50: the updates other than the TLB writes keep the TLB (`instrClosed_tlb`), and reset fills it with zero
entries. -/
theorem onlyTlbWritesChangeTlb : Obligations.OnlyTlbWritesChangeTlb := by
  refine ⟨?instruction, ?step, ?reset⟩
  case instruction =>
    intro i s t hwi hwr hexec
    exact exec_closed_of_ne (instrClosed_tlb s.tlb) i hwi hwr rfl t hexec
  case step =>
    intro s t hstep hfetch
    refine step_closed_of_exec (instrClosed_tlb s.tlb) rfl ?_ t hstep
    intro i u hi hu
    refine exec_closed_of_ne (instrClosed_tlb s.tlb) i ?_ ?_ hu
    · rintro rfl
      exact (hfetch u).1 hi
    · rintro rfl
      exact (hfetch u).2 hi
  case reset =>
    intro s e he
    exact eq_zero_of_mem_resetWith_tlb he
end

section
/-! Entering an exception and the tick, in the terms of `Entered` and `Ticked` (60 R450, R460 to R466, R480). -/

namespace Sys2Proof.Machine

open Sys2Proof.Safety

-- The row of an exception in the table of 60 R450.

theorem rowOf_code (e : Exn) : (rowOf e).code = e.code.toNat := by cases e <;> rfl

theorem rowOf_ce (e : Exn) : (rowOf e).ce = e.ce.toNat := by cases e <;> rfl

theorem rowOf_bad (e : Exn) : (rowOf e).bad = e.badVAddr := by cases e <;> rfl

theorem rowOf_refill (e : Exn) : (rowOf e).refill = e.refill := by cases e <;> rfl

theorem rowOf_tlbVa (e : Exn) : (rowOf e).tlbVa = e.tlbAddr := by cases e <;> rfl

/-- The four vectors (60 R465). -/
theorem vectorOf_eq (bev exl : Bool) (e : Exn) : vectorOf bev exl e = vectorAddress bev exl (rowOf e).refill := by
  rw [rowOf_refill, vectorOf]
  cases bev <;> cases exl <;> cases e.refill <;> rfl

-- Cause after entry.

theorem getField_causeAfter_code (cause : Word) (e : Exn) (exl slot : Bool) :
    getField (causeAfter cause e exl slot) 2 5 = e.code := by
  unfold causeAfter
  dsimp only
  split
  · rw [getField_setField_of_disjoint _ _ _ _ _ (by decide), getField_setField_same _ _ _ (by decide)]
  · rw [getField_setField_of_disjoint _ _ _ _ _ (by decide),
      getField_setField_of_disjoint _ _ _ _ _ (by decide), getField_setField_same _ _ _ (by decide)]

theorem getField_causeAfter_ce (cause : Word) (e : Exn) (exl slot : Bool) :
    getField (causeAfter cause e exl slot) 28 2 = e.ce := by
  unfold causeAfter
  dsimp only
  split
  · rw [getField_setField_same _ _ _ (by decide)]
  · rw [getField_setField_of_disjoint _ _ _ _ _ (by decide), getField_setField_same _ _ _ (by decide)]

theorem bitAt_causeAfter_bd (cause : Word) (e : Exn) (exl slot : Bool) :
    bitAt (causeAfter cause e exl slot) 31 = if exl then bitAt cause 31 else slot := by
  cases exl with
  | true =>
    refine (bitAt_setField_of_disjoint _ _ _ _ (by decide)).trans ?_
    exact bitAt_setField_of_disjoint _ _ _ _ (by decide)
  | false => exact bitAt_setField_bit _ _ _ (by decide)

/-- Entry keeps the bits of Cause outside ExcCode, CE and BD. -/
theorem bitAt_causeAfter_rest (cause : Word) (e : Exn) (exl slot : Bool) {i : Nat} (hcode : i < 2 ∨ 6 < i)
    (h28 : i ≠ 28) (h29 : i ≠ 29) (h31 : i ≠ 31) :
    bitAt (causeAfter cause e exl slot) i = bitAt cause i := by
  have hkept : bitAt (setField (setField cause 2 e.code) 28 e.ce) i = bitAt cause i := by
    rw [bitAt_setField_of_disjoint _ _ _ _ (by omega), bitAt_setField_of_disjoint _ _ _ _ (by omega)]
  cases exl with
  | true => exact hkept
  | false => exact (bitAt_setField_of_disjoint _ _ _ _ (by omega)).trans hkept

-- What a TLB exception writes (60 R464).

/-- A field of a shifted value. -/
theorem getField_ushiftRight {n : Nat} (v : BitVec n) (k lo len : Nat) :
    getField (v >>> k) lo len = getField v (k + lo) len := by
  apply BitVec.eq_of_getLsbD_eq
  intro i hi
  rw [getLsbD_getField, getLsbD_getField, BitVec.getLsbD_ushiftRight, Nat.add_assoc]

theorem noteTlbFault_entryHi (c : Cp0) (va : DWord) : (c.noteTlbFault va).entryHi =
    (c.entryHi &&& 0x3FFFFF0000001FFF#64) ||| (va &&& 0xC00000FFFFFFE000#64) := by
  unfold Cp0.noteTlbFault
  dsimp only
  rw [setField_getField, setField_getField, BitVec.and_or_distrib_right, BitVec.and_assoc, BitVec.and_assoc,
    BitVec.or_assoc, BitVec.setWidth_eq, ← BitVec.and_or_distrib_left]
  rfl

theorem noteTlbFault_context (c : Cp0) (va : DWord) : (c.noteTlbFault va).context =
    (c.context &&& 0xFFFFFFFFFF80000F#64) ||| ((va >>> 9) &&& 0x00000000007FFFF0#64) := by
  unfold Cp0.noteTlbFault
  dsimp only
  rw [← getField_ushiftRight va 9 4, setField_getField, BitVec.setWidth_eq]
  rfl

theorem noteTlbFault_xContext (c : Cp0) (va : DWord) : (c.noteTlbFault va).xContext =
    (c.xContext &&& 0xFFFFFFFE0000000F#64) ||| ((va >>> 31) &&& 0x0000000180000000#64) |||
      ((va >>> 9) &&& 0x000000007FFFFFF0#64) := by
  unfold Cp0.noteTlbFault
  dsimp only
  rw [← getField_ushiftRight va 31 31, ← getField_ushiftRight va 9 4, setField_getField, setField_getField,
    BitVec.and_or_distrib_right, BitVec.and_assoc, BitVec.and_assoc, BitVec.setWidth_eq, BitVec.setWidth_eq]
  rfl

-- The CP0 registers after entry.

section
variable (c : Cp0) (e : Exn) (pc : DWord) (slot : Bool)

/-- A TLB exception notes its address in the registers that entry leaves otherwise alone. -/
theorem enter_eq : c.enter e pc slot =
    let c' : Cp0 := { c with
      cause := causeAfter c.cause e c.exl slot
      epc := epcAfter c.epc pc c.exl slot
      badVAddr := e.badVAddr.getD c.badVAddr
      status := setField c.status 1 (bit true) }
    e.tlbAddr.elim c' c'.noteTlbFault := by
  unfold Cp0.enter
  cases e.tlbAddr <;> rfl

theorem enter_cause : (c.enter e pc slot).cause = causeAfter c.cause e c.exl slot := by
  rw [enter_eq]
  cases e.tlbAddr <;> rfl

theorem enter_status : (c.enter e pc slot).status = setField c.status 1 (bit true) := by
  rw [enter_eq]
  cases e.tlbAddr <;> rfl

theorem enter_epc : (c.enter e pc slot).epc = epcAfter c.epc pc c.exl slot := by
  rw [enter_eq]
  cases e.tlbAddr <;> rfl

theorem enter_badVAddr : (c.enter e pc slot).badVAddr = e.badVAddr.getD c.badVAddr := by
  rw [enter_eq]
  cases e.tlbAddr <;> rfl

/-- Entry writes seven registers and keeps the others. -/
theorem enter_rest : c.enter e pc slot = { c with
    cause := (c.enter e pc slot).cause
    epc := (c.enter e pc slot).epc
    status := (c.enter e pc slot).status
    badVAddr := (c.enter e pc slot).badVAddr
    entryHi := (c.enter e pc slot).entryHi
    context := (c.enter e pc slot).context
    xContext := (c.enter e pc slot).xContext } := by
  rw [enter_eq]
  cases e.tlbAddr <;> rfl

end

/-- `takeException` does what `Entered` says (60 R460). -/
theorem entered_takeException (e : Exn) (s : State) : Entered e s (takeException e s) where
  code := by rw [takeException_cp0, enter_cause, getField_causeAfter_code, rowOf_code]
  ce := by rw [takeException_cp0, enter_cause, getField_causeAfter_ce, rowOf_ce]
  bd := by rw [takeException_cp0, enter_cause, bitAt_causeAfter_bd]
  causeRest i hcode h28 h29 h31 := by
    rw [takeException_cp0, enter_cause, bitAt_causeAfter_rest _ _ _ _ hcode h28 h29 h31]
  epc := by rw [takeException_cp0, enter_epc]; rfl
  exl := by rw [takeException_cp0, enter_status, bitAt_setField_bit _ _ _ (by decide)]
  statusRest i hi := by
    rw [takeException_cp0, enter_status, bitAt_setField_of_disjoint _ _ _ _ (by omega)]
  badVAddr := by rw [takeException_cp0, enter_badVAddr, rowOf_bad]
  entryHi := by
    rw [takeException_cp0, enter_eq, rowOf_tlbVa]
    cases e.tlbAddr with
    | none => rfl
    | some va => exact noteTlbFault_entryHi _ va
  context := by
    rw [takeException_cp0, enter_eq, rowOf_tlbVa]
    cases e.tlbAddr with
    | none => rfl
    | some va => exact noteTlbFault_context _ va
  xContext := by
    rw [takeException_cp0, enter_eq, rowOf_tlbVa]
    cases e.tlbAddr with
    | none => rfl
    | some va => exact noteTlbFault_xContext _ va
  cp0Rest := enter_rest _ _ _ _
  pc := vectorOf_eq _ _ e
  flow := ⟨rfl, rfl, rfl⟩
  regs r := takeException_reg s e r
  hiLo := ⟨rfl, rfl⟩
  tlbLl := ⟨rfl, rfl⟩
  mem _ := rfl
  bus := ⟨rfl, rfl, rfl⟩

-- The tick (60 R480).

/-- The distance from Count to Compare, modulo 2^32. -/
theorem toNat_sub_word (a b : Word) : ((a - b).toNat : Int) = ((a.toNat : Int) - b.toNat) % 2 ^ 32 := by
  have ha := a.isLt
  have hb := b.isLt
  rw [BitVec.toNat_sub]
  omega

/-- The tick writes Count, and in Cause the bit IP7 where Compare was passed. -/
theorem tick_eq (c : Cp0) (increment : Word) : c.tick increment = { c with
    count := c.count + increment
    cause := if 1 ≤ (c.compare - c.count).toNat ∧ (c.compare - c.count).toNat ≤ increment.toNat
      then setField c.cause 15 (bit true) else c.cause } := by
  unfold Cp0.tick
  dsimp only
  split <;> rfl

@[simp] theorem tick_status (c : Cp0) (increment : Word) : (c.tick increment).status = c.status := by
  rw [tick_eq]

@[simp] theorem tick_entryHi (c : Cp0) (increment : Word) : (c.tick increment).entryHi = c.entryHi := by
  rw [tick_eq]

/-- The tick does what `Ticked` says. -/
theorem ticked_tick (s : State) : Ticked s (s.setCp0 (s.cp0.tick s.countIncrement)) := by
  rw [tick_eq]
  refine ⟨rfl, BitVec.toNat_add _ _, ?others, ?ip7⟩
  case others =>
    intro i hi
    dsimp only [setCp0_cp0]
    split
    · exact bitAt_setField_of_disjoint _ _ _ _ (by omega)
    · rfl
  case ip7 =>
    rw [← toNat_sub_word]
    dsimp only [setCp0_cp0]
    split
    · rename_i hpassed
      rw [bitAt_setField_bit _ _ _ (by decide)]
      exact ⟨fun _ => .inr (by exact_mod_cast hpassed), fun _ => rfl⟩
    · rename_i hpassed
      exact ⟨.inl, fun h => h.resolve_right (by exact_mod_cast hpassed)⟩

end Sys2Proof.Machine
end

section
/-! What a step does where no interrupt is ready: it takes the exception of the fetch, or it runs the instruction
whose word stands at pc (10 R80 to R86). -/

namespace Sys2Proof.Machine

open Sys2Proof.Safety

-- The step.

theorem step_of_fetch_raised {s u : State} {e : Exn} (hi : s.cp0.interruptReady = false)
    (hf : fetch s.pc s = .raised e u) : step s = thenTick (raise e u) := by
  have hd : fetchDecode s = .raised e u := by rw [fetchDecode, hf]
  rw [step, if_neg (by rw [hi]; decide), hd]

theorem step_of_decodeWord {s : State} {pa : PAddr} {i : Instr} (hi : s.cp0.interruptReady = false)
    (hf : FetchesFrom s pa) (hd : decodeWord (BitVec.ofNat 32 (bigEndian s.mem pa.toNat 4)) = .ok i) :
    step s = thenTick (exec i s) := by
  have hfetch : fetchDecode s = .instr i s := by rw [fetchDecode_of_fetchesFrom s pa hf, hd]
  rw [step, if_neg (by rw [hi]; decide), hfetch]

/-- The step that runs a given encoded instruction, for an instruction that completes. -/
theorem step_of_encode {s t : State} {pa : PAddr} {i : Instr} (hi : s.cp0.interruptReady = false)
    (hf : FetchesFrom s pa) (hw : bigEndian s.mem pa.toNat 4 = (encode i).toNat)
    (hd : decodeWord (encode i) = .ok i) (ht : exec i s = .next t) :
    step s = .next (t.setCp0 (t.cp0.tick t.countIncrement)) := by
  rw [step_of_decodeWord hi hf (by rw [hw, BitVec.ofNat_toNat, BitVec.setWidth_eq, hd]), ht]
  rfl

/-- Without IE no interrupt is ready (60 R475). -/
theorem interruptReady_of_ie {c : Cp0} (h : bitAt c.status 0 = false) : c.interruptReady = false := by
  rw [Cp0.interruptReady, Cp0.ie, h]
  rfl

-- Words in memory.

/-- The word of four bytes of memory is their big-endian value. -/
theorem wordOfBytes_read (m : Memory) (a : Nat) :
    wordOfBytes (Memory.read m a) (Memory.read m (a + 1)) (Memory.read m (a + 2)) (Memory.read m (a + 3)) =
      BitVec.ofNat 32 (bigEndian m a 4) := by
  have hlt : bigEndian m a 4 < 2 ^ 32 := bigEndian_lt m a 4
  apply BitVec.eq_of_toNat_eq
  rw [BitVec.toNat_ofNat, Nat.mod_eq_of_lt hlt]
  unfold wordOfBytes
  rw [BitVec.toNat_append, BitVec.toNat_append, BitVec.toNat_append,
    ← Nat.shiftLeft_add_eq_or_of_lt (BitVec.isLt _), ← Nat.shiftLeft_add_eq_or_of_lt (BitVec.isLt _),
    ← Nat.shiftLeft_add_eq_or_of_lt (BitVec.isLt _)]
  simp [bigEndian, Nat.shiftLeft_eq]

/-- What the first four bytes decode to is what their word decodes to. -/
theorem decodeWord_of_decodeBytes {b0 b1 b2 b3 : Byte} {i : Instr} {rest : List Byte}
    (h : decodeBytes [b0, b1, b2, b3] = .ok (i, rest)) : decodeWord (wordOfBytes b0 b1 b2 b3) = .ok i := by
  rw [decodeBytes] at h
  cases hd : decodeWord (wordOfBytes b0 b1 b2 b3) with
  | error e => rw [hd] at h; cases h
  | ok j => rw [hd] at h; cases h; rfl

theorem bigEndian_congr {m m' : Memory} (h : ∀ a, Memory.read m' a = Memory.read m a) (a n : Nat) :
    bigEndian m' a n = bigEndian m a n := by
  induction n with
  | zero => rfl
  | succ n ih => rw [bigEndian, bigEndian, ih, h]

end Sys2Proof.Machine

open Sys2Proof Sys2Proof.Machine Sys2Proof.Safety

/-- Settles O8: the step enters the exception and ticks; `Entered` and `Ticked` are what these two do. -/
theorem fetchExceptionTaken : Obligations.FetchExceptionTaken := by
  intro s u e hi hf
  exact ⟨takeException e u, _, step_of_fetch_raised hi hf, entered_takeException e u, ticked_tick _⟩

/-- Settles O5: the four bytes at pc are the big-endian word that the fetch decodes. -/
theorem stepRunsDecodedInstruction : Obligations.StepRunsDecodedInstruction := by
  intro s pa i rest hi hf hd _
  refine step_of_decodeWord hi hf ?_
  rw [← wordOfBytes_read]
  exact decodeWord_of_decodeBytes hd
end

section
/-! JAL and its delay slot (10 R88): two steps, the second of which fetches in the state that the first left. -/

namespace Sys2Proof.Machine

open Sys2Proof.Safety

/-- Translation looks at Status, EntryHi and the TLB only, so a tick does not change it (20 R109 to R117). -/
theorem translateAligned_congr_of_status {s t : State} (va : DWord) (w : Width) (acc : AccessKind)
    (hstatus : t.cp0.status = s.cp0.status) (hhi : t.cp0.entryHi = s.cp0.entryHi) (htlb : t.tlb = s.tlb) :
    translateAligned va w acc t = translateAligned va w acc s := by
  have hkernel : t.cp0.kernelMode = s.cp0.kernelMode := by
    rw [Cp0.kernelMode, Cp0.exl, Cp0.erl, Cp0.ksu, hstatus]
    rfl
  have hsupervisor : t.cp0.supervisorMode = s.cp0.supervisorMode := by
    rw [Cp0.supervisorMode, hkernel, Cp0.ksu, hstatus]
    rfl
  have haccess (seg : Segment) : mayAccess t.cp0 seg = mayAccess s.cp0 seg := by
    cases seg <;> simp only [mayAccess, hkernel, hsupervisor]
  have hlookup : tlbLookup va acc t = tlbLookup va acc s := by
    rw [tlbLookup, Cp0.asid, hhi, htlb]
    rfl
  unfold translateAligned translate
  rw [haccess, hlookup]

theorem decodeWord_encode_jal (index : BitVec 26) : decodeWord (encode (.jal index)) = .ok (.jal index) := by
  rw [decodeWord, encode, opOf_formJ, indexOf_formJ]
  rfl

theorem decodeWord_encode_addiu (rs rt : RegNum) (imm : BitVec 16) :
    decodeWord (encode (.addiu rs rt imm)) = .ok (.addiu rs rt imm) := by
  rw [decodeWord, encode, opOf_formI, rsOf_formI, rtOf_formI, immOf_formI]
  rfl

/-- JAL links x[31] and queues the target in the jump's own 256 MiB region (42 R281, R282). -/
theorem jumpsLinking_jal (s : State) (index : BitVec 26) : JumpsLinking (exec (.jal index) s) s 31#5 false true
    (BitVec.ofNat 64 (s.pc.toNat / 2 ^ 28 * 2 ^ 28 + index.toNat * 4)) :=
  jumpsLinking_branch s linkReg true true _ _ rfl (jumpTargetOf_eq s index)

/-- A word is the integer it stands for, and so is a wrapping sum of words (40 R201). -/
theorem sext_add_lowWord (a b : DWord) : sext (lowWord a + lowWord b) = word32 (low32s a + low32s b) := by
  apply sext_eq_word32
  rw [BitVec.ofInt_add, ← toInt_lowWord, ← toInt_lowWord, BitVec.ofInt_toInt, BitVec.ofInt_toInt]

theorem low32s_simm (imm : BitVec 16) : low32s (simm imm) = imm.toInt := by
  have hle := BitVec.le_toInt imm
  have hlt := BitVec.toInt_lt (x := imm)
  rw [low32s, toInt_simm]
  apply Int.bmod_eq_of_le <;> norm_num at * <;> omega

/-- ADDIU adds the low word and the immediate (40 R212). -/
theorem writesReg_addiu (s : State) (rs rt : RegNum) (imm : BitVec 16) :
    WritesReg (exec (.addiu rs rt imm) s) s rt (word32 (low32s (s.reg rs) + imm.toInt)) := by
  refine writesReg_retire s rt _ _ ?_
  rw [State.regLow, sext_add_lowWord, low32s_simm]

end Sys2Proof.Machine

open Sys2Proof Sys2Proof.Machine Sys2Proof.Safety

/-- Settles O11: JAL leaves the link and a pending branch and nothing else that the fetch at pc + 4 sees; the ADDIU
there then goes to the pending target. -/
theorem jalThenDelaySlot : Obligations.JalThenDelaySlot := by
  intro s pa pa' index rs rt imm hie hpend hf hw htr hkind hw' hrt
  -- The first step.
  obtain ⟨t, hexec, hregs, -, hcp0, ⟨htlb, -⟩, hmem, ⟨-, hbus, -⟩, hpc, hpending, htarget, -⟩ :=
    jumpsLinking_jal s index
  have hstep := step_of_encode (interruptReady_of_ie hie) hf hw (decodeWord_encode_jal index) hexec
  rw [hpend] at hpc
  let t' := t.setCp0 (t.cp0.tick t.countIncrement)
  have hstatus : t'.cp0.status = s.cp0.status := (tick_status _ _).trans (by rw [hcp0])
  have hhi : t'.cp0.entryHi = s.cp0.entryHi := (tick_entryHi _ _).trans (by rw [hcp0])
  -- The second step.
  have hie' : bitAt t'.cp0.status 0 = false := by rw [hstatus]; exact hie
  have hpc' : t'.pc = s.pc + 4#64 := hpc
  have hf' : FetchesFrom t' pa' := by
    refine ⟨?_, ?_⟩
    · rw [hpc', translateAligned_congr_of_status _ _ _ hstatus hhi htlb, htr]
    · rw [setCp0_bus, hbus, hkind]
  have hw'' : bigEndian t'.mem pa'.toNat 4 = (encode (.addiu rs rt imm)).toNat :=
    (bigEndian_congr hmem _ _).trans hw'
  obtain ⟨u, hexec', hregs', -, -, -, -, -, hpcu, hpendu, -, hslotu⟩ := writesReg_addiu t' rs rt imm
  have hstep' := step_of_encode (interruptReady_of_ie hie') hf' hw'' (decodeWord_encode_addiu rs rt imm) hexec'
  refine ⟨t', _, hstep, hstep', hpc', ?link, ?target, ?sum, hpendu, hslotu⟩
  case link =>
    rw [setCp0_reg, hregs', if_neg (fun h => hrt h.1.symm), setCp0_reg, hregs, if_pos ⟨rfl, by decide⟩]
  case target =>
    have hpcLt := s.pc.isLt
    have hindex := index.isLt
    have hpend' : t'.branchPending = true := hpending
    have htarget' : t'.branchTarget = _ := htarget
    rw [setCp0_pc, hpcu, hpend', if_pos rfl, htarget', if_pos rfl, BitVec.toNat_ofNat]
    omega
  case sum =>
    intro hrt0
    have hrs : t'.reg rs = if rs = 31#5 then s.pc + 8#64 else s.reg rs := by
      rw [setCp0_reg, hregs]
      by_cases h : rs = 31#5 <;> simp [h]
    rw [setCp0_reg, hregs', if_pos ⟨rfl, hrt0⟩, hrs]
end

section
/-! The writes of the CP0 registers by MTC0 and DMTC0 (10 R41 to R68; 44 R368 to R370): `Cp0.write` in the terms of
the statements, the writable bits under their mask. -/

namespace Sys2Proof.Machine

open Sys2Proof.Safety

-- One lemma for each register whose writable bits are not the whole of it.

theorem write_index_bits (w : Word) (v : DWord) :
    setField w 0 (getField v 0 6) = (w &&& 0xFFFFFFC0#32) ||| (BitVec.ofNat 32 v.toNat &&& 0x3F#32) := by
  rw [setField_getField, ← lowWord_eq_ofNat]
  rfl

theorem write_entryLo_bits (v : DWord) : zext (getField v 0 30) = v &&& 0x3FFFFFFF#64 :=
  zext_getField_zero v 30

theorem write_context_bits (w v : DWord) :
    setField w 23 (getField v 23 41) = (w &&& 0x7FFFFF#64) ||| (v &&& 0xFFFFFFFFFF800000#64) := by
  rw [setField_getField, BitVec.setWidth_eq]
  rfl

theorem write_entryHi_bits (v : DWord) :
    entryHiOf (getField v 62 2) (getField v 13 27) (getField v 0 8) = v &&& 0xC00000FFFFFFE0FF#64 := by
  unfold entryHiOf
  rw [setField_getField, setField_getField, setField_getField, BitVec.setWidth_eq, BitVec.zero_and,
    BitVec.zero_or, BitVec.and_or_distrib_right, BitVec.and_assoc, BitVec.and_assoc,
    BitVec.and_assoc, ← BitVec.and_or_distrib_left, ← BitVec.and_or_distrib_left]
  rfl

theorem write_cause_bits (w : Word) (v : DWord) :
    setField w 8 (getField v 8 2) = (w &&& 0xFFFFFCFF#32) ||| (BitVec.ofNat 32 v.toNat &&& 0x300#32) := by
  rw [setField_getField, ← lowWord_eq_ofNat]
  rfl

theorem write_config_bits (v : DWord) :
    setField 0x00008000#32 0 (getField v 0 3) = 0x8000#32 ||| (BitVec.ofNat 32 v.toNat &&& 0x7#32) := by
  rw [setField_getField, ← lowWord_eq_ofNat]
  rfl

theorem write_xContext_bits (w v : DWord) :
    setField w 33 (getField v 33 31) = (w &&& 0x1FFFFFFFF#64) ||| (v &&& 0xFFFFFFFE00000000#64) := by
  rw [setField_getField, BitVec.setWidth_eq]
  rfl

/-- What a write of `v` makes of the registers `c`, for every register number but those of PageMask, Wired and
Compare. -/
def maskedWrites (c : Cp0) (v : DWord) : List (RegNum × Cp0) :=
  let w : Word := BitVec.ofNat 32 v.toNat
  [(0, { c with index := (c.index &&& 0xFFFFFFC0#32) ||| (w &&& 0x3F#32) }),
   (1, c),
   (2, { c with entryLo0 := v &&& 0x3FFFFFFF#64 }),
   (3, { c with entryLo1 := v &&& 0x3FFFFFFF#64 }),
   (4, { c with context := (c.context &&& 0x7FFFFF#64) ||| (v &&& 0xFFFFFFFFFF800000#64) }),
   (7, c), (8, c),
   (9, { c with count := w }),
   (10, { c with entryHi := v &&& 0xC00000FFFFFFE0FF#64 }),
   (12, { c with status := w &&& 0x1047FF1F#32 }),
   (13, { c with cause := (c.cause &&& 0xFFFFFCFF#32) ||| (w &&& 0x300#32) }),
   (14, { c with epc := v }),
   (15, c),
   (16, { c with config := 0x8000#32 ||| (w &&& 0x7#32) }),
   (17, { c with llAddr := w }),
   (18, c), (19, c),
   (20, { c with xContext := (c.xContext &&& 0x1FFFFFFFF#64) ||| (v &&& 0xFFFFFFFE00000000#64) }),
   (21, c), (22, c), (23, c), (24, c), (25, c), (26, c), (27, c),
   (28, { c with tagLo := w }),
   (29, { c with tagHi := w }),
   (30, { c with errorEpc := v }),
   (31, c)]

theorem write_of_mem_maskedWrites {c c' : Cp0} {v : DWord} {n : RegNum} (h : (n, c') ∈ maskedWrites c v)
    (tlbSize : Nat) : c.write tlbSize n v = c' := by
  have key : ∀ p ∈ maskedWrites c v, c.write tlbSize p.1 v = p.2 := by
    simp [maskedWrites, Cp0.write, write_index_bits, write_entryLo_bits, write_context_bits,
      write_entryHi_bits, write_cause_bits, write_config_bits, write_xContext_bits, lowWord_eq_ofNat]
  exact key _ h

-- PageMask, Wired and Compare.

/-- The number `l` is a legal mask whose ones are all ones of `v[24:13]`. -/
def LegalWithin (l : Nat) (v : DWord) : Prop :=
  l ∈ [0x000, 0x003, 0x00F, 0x03F, 0x0FF, 0x3FF, 0xFFF] ∧
    ∀ i, i < 12 → l.testBit i = true → v.getLsbD (13 + i) = true

theorem mem_legalNumbers_iff (l : Nat) :
    l ∈ [0x000, 0x003, 0x00F, 0x03F, 0x0FF, 0x3FF, 0xFFF] ↔ ∃ m ∈ legalMasks, m.toNat = l := by
  have hlist : [0x000, 0x003, 0x00F, 0x03F, 0x0FF, 0x3FF, 0xFFF] = legalMasks.reverse.map BitVec.toNat := by
    decide
  rw [hlist, List.mem_map]
  simp only [List.mem_reverse]

/-- A mask has no one outside the field of `v` where every one of it is a one of `v`. -/
theorem and_not_getField_iff (m : BitVec 12) (v : DWord) : m &&& ~~~getField v 13 12 = 0#12 ↔
    ∀ i, i < 12 → m.toNat.testBit i = true → v.getLsbD (13 + i) = true := by
  have hbit (i : Nat) (hi : i < 12) : (m &&& ~~~getField v 13 12).getLsbD i =
      (m.toNat.testBit i && !v.getLsbD (13 + i)) := by
    rw [BitVec.getLsbD_and, BitVec.getLsbD_not, getLsbD_getField, decide_eq_true hi, Bool.true_and,
      Bool.true_and, BitVec.testBit_toNat]
  constructor
  · intro h i hi hm
    have hzero := hbit i hi
    rw [h, hm, BitVec.getLsbD_zero, Bool.true_and] at hzero
    simpa using hzero.symm
  · intro h
    apply BitVec.eq_of_getLsbD_eq
    intro i hi
    rw [hbit i hi, BitVec.getLsbD_zero]
    cases hm : m.toNat.testBit i with
    | false => rfl
    | true => rw [h i hi hm]; rfl

/-- `legalize` takes the largest legal mask within the value (10 R45). -/
theorem toNat_legalize {l : Nat} {v : DWord} (hl : LegalWithin l v) (hmax : ∀ l', LegalWithin l' v → l' ≤ l) :
    (legalize (getField v 13 12)).toNat = l := by
  obtain ⟨hmem, hbits⟩ := hl
  obtain ⟨m, hm, rfl⟩ := (mem_legalNumbers_iff l).mp hmem
  apply Nat.le_antisymm
  · exact hmax _ ⟨(mem_legalNumbers_iff _).mpr ⟨_, legalize_mem _, rfl⟩,
      (and_not_getField_iff _ v).mp (legalize_within _)⟩
  · exact le_legalize hm ((and_not_getField_iff m v).mpr hbits)

theorem writeWired_eq (c : Cp0) (tlbSize : Nat) (v : DWord) : c.writeWired tlbSize v = { c with
    wired := BitVec.ofNat 32 (min (v.toNat % 64) (tlbSize - 1))
    random := BitVec.ofNat 32 (tlbSize - 1) } := by
  rw [Cp0.writeWired, getField_eq_ofNat, BitVec.toNat_ofNat, Nat.pow_zero, Nat.div_one]

/-- A write of Compare acknowledges the timer interrupt (10 R51). -/
theorem setIp7_false (c : Cp0) : c.setIp7 false = { c with cause := c.cause &&& 0xFFFF7FFF#32 } :=
  congrArg (fun x => { c with cause := x }) (setField_zero c.cause 15 1)

/-- What a write of `v` to PageMask, Wired or Compare makes of the registers `c`. -/
def BoundedWrite (c : Cp0) (tlbSize : Nat) (n : RegNum) (v : DWord) (c' : Cp0) : Prop :=
  (n = 5#5 ∧ ∃ l, LegalWithin l v ∧ (∀ l', LegalWithin l' v → l' ≤ l) ∧
    c' = { c with pageMask := BitVec.ofNat 32 (l * 2 ^ 13) }) ∨
  (n = 6#5 ∧ c' = { c with
    wired := BitVec.ofNat 32 (min (v.toNat % 64) (tlbSize - 1))
    random := BitVec.ofNat 32 (tlbSize - 1) }) ∨
  (n = 11#5 ∧ c' = { c with
    compare := BitVec.ofNat 32 v.toNat
    cause := c.cause &&& 0xFFFF7FFF#32 })

theorem write_of_boundedWrite {c c' : Cp0} {tlbSize : Nat} {n : RegNum} {v : DWord}
    (h : BoundedWrite c tlbSize n v c') : c.write tlbSize n v = c' := by
  rcases h with ⟨rfl, l, hl, hmax, rfl⟩ | ⟨rfl, rfl⟩ | ⟨rfl, rfl⟩
  · rw [← toNat_legalize hl hmax, ← pageMaskOf_eq]
    rfl
  · exact writeWired_eq c tlbSize v
  · rw [← lowWord_eq_ofNat]
    exact setIp7_false { c with compare := lowWord v }

-- The instructions.

theorem writesCp0_mtc0 {s : State} {rt n : RegNum} {c : Cp0} (husable : s.cp0.kernelMode = true ∨ s.cp0.cu0 = true)
    (h : s.cp0.write s.tlbSize n (word32 (low32s (s.reg rt))) = c) : WritesCp0 (exec (.mtc0 rt n) s) s c := by
  have hexec : exec (.mtc0 rt n) s =
      requireCp0 s (retire (s.setCp0 (s.cp0.write s.tlbSize n (sext (s.regLow rt))))) := rfl
  rw [hexec, requireCp0_of_or s husable]
  exact writesCp0_retire s _ c (by rw [State.regLow, sext_lowWord, h])

theorem writesCp0_dmtc0 {s : State} {rt n : RegNum} {c : Cp0} (hkernel : s.cp0.kernelMode = true)
    (h : s.cp0.write s.tlbSize n (s.reg rt) = c) : WritesCp0 (exec (.dmtc0 rt n) s) s c := by
  have hexec : exec (.dmtc0 rt n) s =
      requireCp0 s (require64 s (retire (s.setCp0 (s.cp0.write s.tlbSize n (s.reg rt))))) := rfl
  rw [hexec, requireCp0_of_or s (.inl hkernel), require64_of_kernelMode s hkernel]
  exact writesCp0_retire s _ c h

end Sys2Proof.Machine

open Sys2Proof Sys2Proof.Machine Sys2Proof.Safety

/-- Settles O41: `Cp0.write` makes of the registers what the statement's table (`maskedWrites`) says, and both moves
write that. -/
theorem moveToCp0 : Obligations.MoveToCp0 := by
  intro s rt n
  constructor
  · intro c' hmem husable
    exact writesCp0_mtc0 husable (write_of_mem_maskedWrites hmem _)
  · intro c' hmem hkernel
    exact writesCp0_dmtc0 hkernel (write_of_mem_maskedWrites hmem _)

/-- Settles O42: the writes of the three registers are those of the statement (`BoundedWrite`), and both moves make
them. -/
theorem pageMaskWiredCompareWrites : Obligations.PageMaskWiredCompareWrites := by
  intro s rt n
  constructor
  · intro c' hwrite husable
    exact writesCp0_mtc0 husable (write_of_boundedWrite hwrite)
  · intro c' hwrite hkernel
    exact writesCp0_dmtc0 hkernel (write_of_boundedWrite hwrite)
end

section
/-! Translation as the statements say it (20 R108 to R118): the segments by the number of the address, the TLB lookup
by the lowest match, and the physical address as a number. -/

namespace Sys2Proof.Machine

open Sys2Proof.Safety

-- The exceptions of an access (20 R113, R117).

theorem addressError_eq (acc : AccessKind) (va : DWord) :
    addressError acc va = if acc = .store then .addressStore va else .addressLoad va := by
  cases acc <;> rfl

theorem tlbError_eq (acc : AccessKind) (va : DWord) (refill : Bool) :
    tlbError acc va refill = if acc = .store then .tlbStore va refill else .tlbLoad va refill := by
  cases acc <;> rfl

/-- A fetch translates as a load does: no rule of translation tells them apart (20 R113, R117, R122). -/
theorem translate_fetch_eq_load (va : DWord) (s : State) : translate va .fetch s = translate va .load s := rfl

-- Segments (20 R108 to R111).

theorem translate_of_not_canonical {va : DWord} (acc : AccessKind) (s : State) (h : canonical va = false) :
    translate va acc s = .error (addressError acc va) := by
  rw [translate, if_pos h]

theorem translate_of_not_mayAccess {va : DWord} (acc : AccessKind) {s : State} (hc : canonical va = true)
    (h : mayAccess s.cp0 (segmentOf va) = false) : translate va acc s = .error (addressError acc va) := by
  rw [translate, if_neg (by simp [hc]), if_pos h]

theorem translate_of_kseg01 {va : DWord} (acc : AccessKind) {s : State} (hc : canonical va = true)
    (h : mayAccess s.cp0 (segmentOf va) = true) (hseg : segmentOf va = .kseg0 ∨ segmentOf va = .kseg1) :
    translate va acc s = .ok ((getField va 0 29).setWidth 36) := by
  rw [translate, if_neg (by simp [hc]), if_neg (by simp [h])]
  obtain hseg | hseg := hseg <;> rw [hseg]

theorem translate_of_mapped {va : DWord} (acc : AccessKind) {s : State} (hc : canonical va = true)
    (h : mayAccess s.cp0 (segmentOf va) = true) (h0 : segmentOf va ≠ .kseg0) (h1 : segmentOf va ≠ .kseg1) :
    translate va acc s = tlbLookup va acc s := by
  rw [translate, if_neg (by simp [hc]), if_neg (by simp [h])]
  cases hseg : segmentOf va with
  | kseg0 => exact absurd hseg h0
  | kseg1 => exact absurd hseg h1
  | kuseg | ksseg | kseg3 => rfl

/-- The three bits that select the segment, as a quotient of the low word. -/
theorem getField_29_3 (va : DWord) : getField va 29 3 = BitVec.ofNat 3 (va.toNat % 2 ^ 32 / 2 ^ 29) := by
  rw [getField_eq_ofNat]
  apply BitVec.eq_of_toNat_eq
  rw [BitVec.toNat_ofNat, BitVec.toNat_ofNat]
  omega

/-- The segments by the low word of the address. -/
theorem segmentOf_eq (va : DWord) : segmentOf va =
    if va.toNat % 2 ^ 32 < 0x80000000 then .kuseg
    else if va.toNat % 2 ^ 32 < 0xA0000000 then .kseg0
    else if va.toNat % 2 ^ 32 < 0xC0000000 then .kseg1
    else if va.toNat % 2 ^ 32 < 0xE0000000 then .ksseg
    else .kseg3 := by
  have hq : va.toNat % 2 ^ 32 / 2 ^ 29 < 8 := by omega
  unfold segmentOf
  rw [getField_29_3]
  generalize va.toNat % 2 ^ 32 = low at hq ⊢
  generalize hk : low / 2 ^ 29 = k at hq ⊢
  split_ifs
  case pos =>
    have hk4 : k < 4 := by omega
    interval_cases k <;> rfl
  · obtain rfl : k = 4 := by omega
    rfl
  · obtain rfl : k = 5 := by omega
    rfl
  · obtain rfl : k = 6 := by omega
    rfl
  · obtain rfl : k = 7 := by omega
    rfl

section
variable {va : DWord}

theorem segmentOf_kuseg (h : va.toNat % 2 ^ 32 < 0x80000000) : segmentOf va = .kuseg := by
  rw [segmentOf_eq, if_pos h]

theorem segmentOf_kseg01 (h : 0x80000000 ≤ va.toNat % 2 ^ 32) (h' : va.toNat % 2 ^ 32 < 0xC0000000) :
    segmentOf va = .kseg0 ∨ segmentOf va = .kseg1 := by
  rw [segmentOf_eq, if_neg (by omega), if_pos h']
  split_ifs
  · exact .inl rfl
  · exact .inr rfl

theorem segmentOf_ksseg (h : 0xC0000000 ≤ va.toNat % 2 ^ 32) (h' : va.toNat % 2 ^ 32 < 0xE0000000) :
    segmentOf va = .ksseg := by
  rw [segmentOf_eq, if_neg (by omega), if_neg (by omega), if_neg (by omega), if_pos h']

theorem segmentOf_kseg3 (h : 0xE0000000 ≤ va.toNat % 2 ^ 32) : segmentOf va = .kseg3 := by
  rw [segmentOf_eq, if_neg (by omega), if_neg (by omega), if_neg (by omega), if_neg (by omega)]

end

/-- kseg0 and kseg1 are open to kernel mode alone (20 R110). -/
theorem mayAccess_kseg01 (c : Cp0) {seg : Segment} (h : seg = .kseg0 ∨ seg = .kseg1) :
    mayAccess c seg = c.kernelMode := by
  obtain rfl | rfl := h <;> rfl

/-- ksseg is closed to user mode alone (20 R110). -/
theorem mayAccess_ksseg (c : Cp0) : mayAccess c .ksseg = !c.userMode := by
  rw [mayAccess, Cp0.supervisorMode, Cp0.userMode]
  cases hk : c.kernelMode with
  | true => rfl
  | false =>
    have h0 : c.ksu ≠ 0#2 := by
      intro h
      simp [Cp0.kernelMode, h] at hk
    revert h0
    generalize c.ksu = k
    revert k
    decide

/-- The physical address of kseg0 and kseg1 as a number (20 R111). -/
theorem setWidth_getField_29 (va : DWord) :
    (getField va 0 29).setWidth 36 = BitVec.ofNat 36 (va.toNat % 2 ^ 32 % 2 ^ 29) := by
  apply BitVec.eq_of_toNat_eq
  rw [BitVec.toNat_setWidth, getField, BitVec.extractLsb'_toNat, Nat.shiftRight_zero, BitVec.toNat_ofNat]
  omega

-- The lookup (20 R115 to R117).

/-- A slot that matches, where no earlier one does, is the first match. -/
theorem firstMatch_eq_some_of_first {r : BitVec 2} {vpn2 : BitVec 27} {asid : BitVec 8} {es : List TlbEntry} {n : Nat}
    {e : TlbEntry} (hn : es[n]? = some e) (hm : e.matchesPage r vpn2 asid = true)
    (hfirst : ∀ m e', m < n → es[m]? = some e' → e'.matchesPage r vpn2 asid ≠ true) :
    firstMatch r vpn2 asid 0 es = some (n, e) := by
  cases hf : firstMatch r vpn2 asid 0 es with
  | none =>
    have hno := firstMatch_eq_none.mp hf e (List.mem_of_getElem? hn)
    rw [hm] at hno
    cases hno
  | some p =>
    obtain ⟨i, x⟩ := p
    obtain ⟨k, rfl, hk, hmk, hlt⟩ := firstMatch_eq_some hf
    have hkn : ¬k < n := fun h => hfirst k x h hk hmk
    have hnk : ¬n < k := fun h => by simp [hlt n h e hn] at hm
    obtain rfl : k = n := by omega
    rw [hn] at hk
    cases hk
    rw [Nat.zero_add]

theorem tlbLookup_of_none {va : DWord} (acc : AccessKind) {s : State}
    (h : firstMatch (getField va 62 2) (getField va 13 27) s.cp0.asid 0 s.tlb = none) :
    tlbLookup va acc s = .error (tlbError acc va true) := by
  rw [tlbLookup, h]

section
variable {va : DWord} {acc : AccessKind} {s : State} {n : Nat} {e : TlbEntry}
  (h : firstMatch (getField va 62 2) (getField va 13 27) s.cp0.asid 0 s.tlb = some (n, e))
include h

theorem tlbLookup_of_invalid (hv : (e.half va).v = false) :
    tlbLookup va acc s = .error (tlbError acc va false) := by
  rw [tlbLookup, h]
  exact if_pos hv

theorem tlbLookup_of_modified (hv : (e.half va).v = true) (hacc : acc = .store) (hd : (e.half va).d = false) :
    tlbLookup va acc s = .error (.tlbModified va) := by
  rw [tlbLookup, h]
  exact (if_neg (by simp [hv])).trans (if_pos ⟨hacc, hd⟩)

theorem tlbLookup_of_valid (hv : (e.half va).v = true) (hd : acc = .store → (e.half va).d = true) :
    tlbLookup va acc s = .ok (e.physAddr (e.half va).pfn va) := by
  rw [tlbLookup, h]
  refine (if_neg (by simp [hv])).trans (if_neg ?_)
  rintro ⟨hacc, hclean⟩
  simp [hd hacc] at hclean

end

/-- Only a store can raise TLB Modified (20 R117). -/
theorem acc_eq_store_of_translate_modified {va bad : DWord} {acc : AccessKind} {s : State}
    (h : translate va acc s = .error (.tlbModified bad)) : acc = .store := by
  have haddr : addressError acc va ≠ .tlbModified bad := by cases acc <;> simp [addressError]
  have htlb (refill : Bool) : tlbError acc va refill ≠ .tlbModified bad := by cases acc <;> simp [tlbError]
  have hlookup : tlbLookup va acc s = .error (.tlbModified bad) → acc = .store := by
    intro h
    unfold tlbLookup at h
    split at h
    · cases htlb true (Except.error.inj h)
    · split_ifs at h with hv hd
      · cases htlb false (Except.error.inj h)
      · exact hd.1
  unfold translate at h
  split_ifs at h
  · cases haddr (Except.error.inj h)
  · cases haddr (Except.error.inj h)
  · split at h
    · cases h
    · cases h
    all_goals exact hlookup h

-- The physical address (20 R115, R118).

theorem offsetBits_le (e : TlbEntry) : e.offsetBits ≤ 24 := by
  have h : popcount e.mask ≤ 12 := (List.length_filter_le _ _).trans_eq List.length_range
  unfold TlbEntry.offsetBits
  omega

/-- The offset mask as ones of the width of an address, shifted. -/
theorem offMask_eq (e : TlbEntry) : e.offMask = BitVec.allOnes 36 >>> (36 - e.offsetBits) := by
  have hle := offsetBits_le e
  apply BitVec.eq_of_getLsbD_eq
  intro i hi
  rw [TlbEntry.offMask, BitVec.getLsbD_ofNat, Nat.testBit_two_pow_sub_one, BitVec.getLsbD_ushiftRight,
    BitVec.getLsbD_allOnes, decide_eq_true hi, Bool.true_and]
  exact decide_eq_decide.mpr (by omega)

theorem toNat_and_offMask (e : TlbEntry) (x : PAddr) : (x &&& e.offMask).toNat = x.toNat % 2 ^ e.offsetBits := by
  have hlt : 2 ^ e.offsetBits ≤ 2 ^ 24 := Nat.pow_le_pow_right (by decide) (offsetBits_le e)
  rw [TlbEntry.offMask, BitVec.toNat_and, BitVec.toNat_ofNat, Nat.mod_eq_of_lt (by omega),
    Nat.and_two_pow_sub_one_eq_mod]

theorem toNat_and_not_offMask (e : TlbEntry) (x : PAddr) :
    (x &&& ~~~e.offMask).toNat = x.toNat / 2 ^ e.offsetBits * 2 ^ e.offsetBits := by
  have hle := offsetBits_le e
  have hx : x.toNat / 2 ^ e.offsetBits * 2 ^ e.offsetBits < 2 ^ 36 :=
    (Nat.div_mul_le_self _ _).trans_lt x.isLt
  rw [offMask_eq, and_not_ushiftRight x _ (by omega), Nat.sub_sub_self (by omega), BitVec.toNat_shiftLeft,
    BitVec.toNat_ushiftRight, Nat.shiftLeft_eq, Nat.shiftRight_eq_div_pow, Nat.mod_eq_of_lt hx]

end Sys2Proof.Machine

open Sys2Proof Sys2Proof.Machine Sys2Proof.Safety

/-- Settles O39: the frame loses its bits under the offset mask and the address all others, so the two parts share no
bit and their union is their sum. -/
theorem physicalAddress : Obligations.PhysicalAddress := by
  intro e pfn va
  have hle : e.offsetBits ≤ 36 := (offsetBits_le e).trans (by decide)
  have hframe : (pfn ++ 0#12 : PAddr).toNat = pfn.toNat * 2 ^ 12 := by
    rw [BitVec.toNat_append, Nat.shiftLeft_eq]
    exact Nat.or_zero _
  have hoffset : (va.setWidth 36).toNat % 2 ^ e.offsetBits = va.toNat % 2 ^ e.offsetBits := by
    rw [BitVec.toNat_setWidth, Nat.mod_mod_of_dvd _ (Nat.pow_dvd_pow 2 hle)]
  change (e.physAddr pfn va).toNat =
    pfn.toNat * 2 ^ 12 / 2 ^ e.offsetBits * 2 ^ e.offsetBits + va.toNat % 2 ^ e.offsetBits
  rw [TlbEntry.physAddr, BitVec.toNat_or, toNat_and_not_offMask, toNat_and_offMask, hframe, hoffset,
    ← Nat.shiftLeft_eq _ e.offsetBits, ← Nat.shiftLeft_add_eq_or_of_lt (Nat.mod_lt _ (Nat.two_pow_pos _))]

/-- Settles O38: `hit` is `matchesPage`, and the first match decides by the half that the address selects. -/
theorem tlbLookupRule : Obligations.TlbLookupRule := by
  intro s va acc hit miss
  have hhit (e : TlbEntry) : hit e ↔ e.matchesPage (getField va 62 2) (getField va 13 27) s.cp0.asid = true := by
    rw [matchesPage_iff]
    refine and_congr_right fun _ => and_congr_right fun _ => and_congr_left fun _ => ?_
    refine forall_congr' fun i => forall_congr' fun hi => ?_
    rw [getLsbD_getField, decide_eq_true hi, Bool.true_and]
  have hmiss (refill : Bool) : tlbError acc va refill = miss refill := tlbError_eq acc va refill
  refine ⟨fun hno => ?none, fun n e hn he hfirst => ?some⟩
  case none =>
    rw [← hmiss]
    exact tlbLookup_of_none acc (firstMatch_eq_none.mpr fun e he => by simpa [hhit] using hno e he)
  case some =>
    have hf := firstMatch_eq_some_of_first hn ((hhit e).mp he) fun m e' hm he' h => hfirst m e' hm he' ((hhit e').mpr h)
    refine ⟨fun hv => ?_, fun hv hacc hd => ?_, fun hv hd => ?_⟩
    · rw [← hmiss]
      exact tlbLookup_of_invalid hf hv
    · exact tlbLookup_of_modified hf hv hacc hd
    · exact tlbLookup_of_valid hf hv hd

/-- Settles O37: the segment is told from the low word (`segmentOf_eq`), and ksseg is closed to user mode alone
(`mayAccess_ksseg`). -/
theorem segmentRules : Obligations.SegmentRules := by
  intro s va acc e low
  have herr : addressError acc va = e := addressError_eq acc va
  constructor
  · intro h
    have hc : canonical va = false := Bool.eq_false_iff.mpr fun hc => h ((canonical_iff va).mp hc)
    rw [translate_of_not_canonical acc s hc, herr]
  · intro h
    have hc : canonical va = true := (canonical_iff va).mpr h
    have hdenied (hacc : mayAccess s.cp0 (segmentOf va) = false) : translate va acc s = .error e := by
      rw [translate_of_not_mayAccess acc hc hacc, herr]
    refine ⟨fun hlo hhi hk => ?unmapped, fun hlo hhi hk => ?kseg01, fun hlo hk => ?kseg3, fun hlo hhi hu => ?ksseg,
      ?mapped⟩
    case unmapped =>
      have hseg := segmentOf_kseg01 hlo hhi
      rw [translate_of_kseg01 acc hc ((mayAccess_kseg01 _ hseg).trans hk) hseg, setWidth_getField_29]
    case kseg01 => exact hdenied ((mayAccess_kseg01 _ (segmentOf_kseg01 hlo hhi)).trans hk)
    case kseg3 => exact hdenied (by rw [segmentOf_kseg3 hlo]; exact hk)
    case ksseg => exact hdenied (by rw [segmentOf_ksseg hlo hhi, mayAccess_ksseg, hu]; rfl)
    case mapped =>
      have hmapped {seg : Segment} (hseg : segmentOf va = seg) (hacc : mayAccess s.cp0 seg = true)
          (h0 : seg ≠ .kseg0) (h1 : seg ≠ .kseg1) : translate va acc s = tlbLookup va acc s :=
        translate_of_mapped acc hc (hseg ▸ hacc) (hseg ▸ h0) (hseg ▸ h1)
      rintro (hlo | ⟨hlo, hhi, hu⟩ | ⟨hlo, hk⟩)
      · exact hmapped (segmentOf_kuseg hlo) rfl (by decide) (by decide)
      · exact hmapped (segmentOf_ksseg hlo hhi) (by rw [mayAccess_ksseg, hu]; rfl) (by decide) (by decide)
      · exact hmapped (segmentOf_kseg3 hlo) hk (by decide) (by decide)
end

section
/-! The instruction fetch (20 R122) and the answers of the bus to a read and to a write (20 R104 to R106), each as
what the access makes of it. -/

namespace Sys2Proof.Machine

open Sys2Proof.Safety

-- The alignment check (20 R107).

theorem aligned_iff (va : DWord) (w : Width) : aligned va w = true ↔ va.toNat % widthBytes w = 0 := by
  rw [aligned, beq_iff_eq]

theorem translateAligned_of_misaligned {va : DWord} {w : Width} (acc : AccessKind) (s : State)
    (h : va.toNat % widthBytes w ≠ 0) : translateAligned va w acc s = .error (addressError acc va) := by
  rw [translateAligned, if_pos (Bool.eq_false_iff.mpr fun ha => h ((aligned_iff va w).mp ha))]

theorem translateAligned_of_aligned {va : DWord} {w : Width} (acc : AccessKind) (s : State)
    (h : va.toNat % widthBytes w = 0) : translateAligned va w acc s = translate va acc s := by
  rw [translateAligned, if_neg (by rw [(aligned_iff va w).mpr h]; decide)]

theorem acc_eq_store_of_translateAligned_modified {va bad : DWord} {w : Width} {acc : AccessKind} {s : State}
    (h : translateAligned va w acc s = .error (.tlbModified bad)) : acc = .store := by
  by_cases ha : va.toNat % widthBytes w = 0
  · rw [translateAligned_of_aligned acc s ha] at h
    exact acc_eq_store_of_translate_modified h
  · rw [translateAligned_of_misaligned acc s ha] at h
    cases acc <;> cases h

-- The value of an access (20 R120, R121).

/-- The low bits of a value, as the remainder that the statements write. -/
theorem truncateTo_eq_ofNat (w : Width) (v : DWord) :
    truncateTo w v = BitVec.ofNat 64 (v.toNat % 2 ^ (8 * widthBytes w)) := by
  have hfield (n : Nat) : zext (getField v 0 n) = BitVec.ofNat 64 (v.toNat % 2 ^ n) := by
    apply BitVec.eq_of_toNat_eq
    rw [zext, BitVec.toNat_setWidth, getField, BitVec.extractLsb'_toNat, Nat.shiftRight_zero, BitVec.toNat_ofNat]
  cases w with
  | byte => exact hfield 8
  | half => exact hfield 16
  | word => exact hfield 32
  | dword => exact (by simp [truncateTo, widthBytes, Nat.mod_eq_of_lt v.isLt])

theorem toNat_truncateTo (w : Width) (v : DWord) :
    (truncateTo w v).toNat = v.toNat % 2 ^ (8 * widthBytes w) := by
  have h64 : v.toNat % 2 ^ (8 * widthBytes w) < 2 ^ 64 := (Nat.mod_le _ _).trans_lt v.isLt
  rw [truncateTo_eq_ofNat, BitVec.toNat_ofNat, Nat.mod_eq_of_lt h64]

-- The bus (20 R104 to R106).

theorem busRead_device {s : State} {pa : PAddr} {accepts : List Width} {w : Width} (q : BusRequest)
    (h : regionKindAt s.bus pa.toNat = .device accepts) : busRead pa w q s = askDevice s accepts w q := by
  rw [busRead, h]

theorem busWrite_device {s : State} {pa : PAddr} {accepts : List Width} {w : Width} (v : DWord)
    (h : regionKindAt s.bus pa.toNat = .device accepts) :
    busWrite pa w v s = askDevice s accepts w (.write pa w v) := by
  rw [busWrite, h]

theorem askDevice_accepted (s : State) {accepts : List Width} {w : Width} (q : BusRequest) (h : w ∈ accepts) :
    askDevice s accepts w q = (Config.deviceAnswer s.busTick q, { s with busTick := s.busTick + 1 }) :=
  if_pos h

theorem askDevice_refused (s : State) {accepts : List Width} {w : Width} (q : BusRequest) (h : w ∉ accepts) :
    askDevice s accepts w q = (.deviceMisaligned, s) :=
  if_neg h

theorem askDevice_mem (s : State) (accepts : List Width) (w : Width) (q : BusRequest) :
    (askDevice s accepts w q).2.mem = s.mem := by
  unfold askDevice
  split <;> rfl

section
variable {pa : PAddr} {w : Width} {q : BusRequest} {v : DWord} {a : BusAnswer} {s u : State}

/-- A read changes no byte of memory. -/
theorem mem_of_busRead (h : busRead pa w q s = (a, u)) : u.mem = s.mem := by
  have hmem : (busRead pa w q s).2.mem = s.mem := by
    unfold busRead
    split
    · rfl
    · rfl
    · exact askDevice_mem s _ w q
  rwa [h] at hmem

/-- A write that faults changes no byte of memory (20 R104). -/
theorem mem_of_busWrite_fault (h : busWrite pa w v s = (a, u)) (hfault : ∀ x, a ≠ .ok x) : u.mem = s.mem := by
  unfold busWrite at h
  split at h
  · cases h
    exact absurd rfl (hfault 0)
  · cases h
    rfl
  · rw [← askDevice_mem s _ w _, h]

end

section
variable {va : DWord} {pa : PAddr} {w : Width} {v x : DWord} {s u : State}

theorem loadAt_of_ok (h : busRead pa w (.read pa w) s = (.ok v, u)) : loadAt va pa w s = .ok (truncateTo w v) u := by
  rw [loadAt, h]

theorem loadAt_of_unmapped (h : busRead pa w (.read pa w) s = (.unmapped, u)) :
    loadAt va pa w s = .raised (.busData va) u := by
  rw [loadAt, h]
  rfl

theorem loadAt_of_deviceMisaligned (h : busRead pa w (.read pa w) s = (.deviceMisaligned, u)) :
    loadAt va pa w s = .raised (.addressLoad va) u := by
  rw [loadAt, h]
  rfl

theorem storeAt_of_ok (h : busWrite pa w (truncateTo w v) s = (.ok x, u)) : storeAt va pa w v s = .ok u := by
  rw [storeAt, h]

theorem storeAt_of_unmapped (h : busWrite pa w (truncateTo w v) s = (.unmapped, u)) :
    storeAt va pa w v s = .raised (.busData va) u := by
  rw [storeAt, h]
  rfl

theorem storeAt_of_deviceMisaligned (h : busWrite pa w (truncateTo w v) s = (.deviceMisaligned, u)) :
    storeAt va pa w v s = .raised (.addressStore va) u := by
  rw [storeAt, h]
  rfl

end

-- The fetch (20 R122).

section
variable {va : DWord} {pa : PAddr} {v : DWord} {s u : State} (ht : translateAligned va .word .fetch s = .ok pa)
include ht

theorem fetch_of_ok (h : busRead pa .word (.fetch pa) s = (.ok v, u)) : fetch va s = .ok (truncateTo .word v) u := by
  rw [fetch, ht]
  simp only [h]

theorem fetch_of_unmapped (h : busRead pa .word (.fetch pa) s = (.unmapped, u)) :
    fetch va s = .raised (.busFetch va) u := by
  rw [fetch, ht]
  simp only [h]
  rfl

theorem fetch_of_deviceMisaligned (h : busRead pa .word (.fetch pa) s = (.deviceMisaligned, u)) :
    fetch va s = .raised (.addressLoad va) u := by
  rw [fetch, ht]
  simp only [h]
  rfl

end

/-- What a fetch raises comes from its translation or from the bus (20 R122). -/
theorem fetch_eq_raised {va : DWord} {s u : State} {e : Exn} (h : fetch va s = .raised e u) :
    translateAligned va .word .fetch s = .error e ∨ e = .busFetch va ∨ e = .addressLoad va := by
  cases ht : translateAligned va .word .fetch s with
  | error e' =>
    rw [fetch_error va s e' ht] at h
    cases h
    exact .inl rfl
  | ok pa =>
    rcases hb : busRead pa .word (.fetch pa) s with ⟨v | - | -, u'⟩
    · rw [fetch_of_ok ht hb] at h
      cases h
    · rw [fetch_of_unmapped ht hb] at h
      cases h
      exact .inr (.inl rfl)
    · rw [fetch_of_deviceMisaligned ht hb] at h
      cases h
      exact .inr (.inr rfl)

end Sys2Proof.Machine

open Sys2Proof Sys2Proof.Machine Sys2Proof.Safety

/-- Settles O7: what a fetch raises comes from its translation or from the bus (`fetch_eq_raised`), TLB Modified comes
from neither, and a fetch translates as a load does. -/
theorem fetchRule : Obligations.FetchRule := by
  refine ⟨fun va s hal => ?misaligned, fun va s e hal ht => ?translation, fun va s pa hal ht => ?bus,
    fun va bad s u h => ?modified, fun va s pa ht => ?readable⟩
  case misaligned => exact fetch_error va s _ (translateAligned_of_misaligned .fetch s hal)
  case translation => exact fetch_error va s e ((translateAligned_of_aligned .fetch s hal).trans ht)
  case bus =>
    have hta : translateAligned va .word .fetch s = .ok pa := (translateAligned_of_aligned .fetch s hal).trans ht
    rcases hb : busRead pa .word (.fetch pa) s with ⟨v | - | -, u⟩
    · rw [fetch_of_ok hta hb, truncateTo_eq_ofNat]
      rfl
    · exact fetch_of_unmapped hta hb
    · exact fetch_of_deviceMisaligned hta hb
  case modified =>
    obtain ht | hbus | haddr := fetch_eq_raised h
    · cases acc_eq_store_of_translateAligned_modified ht
    · cases hbus
    · cases haddr
  case readable => rw [translate_fetch_eq_load, ht]
end

section
/-! The load and store instructions by the lists of the statements (43 R310 to R339): what every instruction of a list
executes, and the exception that it takes where its access raises one. -/

namespace Sys2Proof.Machine

open Sys2Proof.Safety

theorem enters_raise (e : Exn) (s : State) : Enters (raise e s) e s := ⟨_, rfl, entered_takeException e s⟩

/-- A 64-bit operation that the mode allows runs. -/
theorem require64_of_allowed {i : Instr} {s : State} (h : Allowed i s) (h64 : is64 i = true) (r : Result) :
    require64 s r = r :=
  require64_of_kernelMode s (h.1 h64) r

section
variable {s : State} {base rt : RegNum} {offset : BitVec 16}

-- What the instructions of each list execute.

/-- An aligned load extends what it reads; `p.2.2` is that extension as a function of the number read. -/
theorem exec_alignedLoad {p : Instr × Width × (Nat → DWord)} (hp : p ∈ alignedLoads base rt offset)
    (ha : Allowed p.1 s) :
    ∃ f : DWord → DWord, exec p.1 s = retireLoad rt f (memRead (effAddr s base offset) p.2.1 s) ∧
      ∀ v : DWord, v.toNat < 2 ^ (8 * widthBytes p.2.1) → f v = p.2.2 v.toNat := by
  simp only [alignedLoads, List.mem_cons, List.not_mem_nil, or_false] at hp
  obtain rfl | rfl | rfl | rfl | rfl | rfl | rfl := hp
  · exact ⟨_, rfl, fun v hv => sext_field_eq_word64 8 v (by decide) hv⟩
  · exact ⟨_, rfl, fun v hv => zext_field_eq_word64 8 v hv⟩
  · exact ⟨_, rfl, fun v hv => sext_field_eq_word64 16 v (by decide) hv⟩
  · exact ⟨_, rfl, fun v hv => zext_field_eq_word64 16 v hv⟩
  · exact ⟨_, rfl, fun v hv => sext_field_eq_word64 32 v (by decide) hv⟩
  · exact ⟨_, require64_of_allowed ha rfl _, fun v hv => zext_field_eq_word64 32 v hv⟩
  · exact ⟨_, require64_of_allowed ha rfl _, fun v _ => eq_word64_toNat v⟩

theorem exec_linkedLoad {p : Instr × Width × (Nat → DWord)} (hp : p ∈ linkedLoads base rt offset)
    (ha : Allowed p.1 s) :
    ∃ f : DWord → DWord, exec p.1 s = loadLinked rt f (effAddr s base offset) p.2.1 s ∧
      ∀ v : DWord, v.toNat < 2 ^ (8 * widthBytes p.2.1) → f v = p.2.2 v.toNat := by
  simp only [linkedLoads, List.mem_cons, List.not_mem_nil, or_false] at hp
  obtain rfl | rfl := hp
  · exact ⟨_, rfl, fun v hv => sext_field_eq_word64 32 v (by decide) hv⟩
  · exact ⟨_, require64_of_allowed ha rfl _, fun v _ => eq_word64_toNat v⟩

theorem exec_alignedStore {p : Instr × Width} (hp : p ∈ alignedStores base rt offset) (ha : Allowed p.1 s) :
    exec p.1 s = retireStore (memWrite (effAddr s base offset) p.2 (s.reg rt) s) := by
  simp only [alignedStores, List.mem_cons, List.not_mem_nil, or_false] at hp
  obtain rfl | rfl | rfl | rfl := hp
  · rfl
  · rfl
  · rfl
  · exact require64_of_allowed ha rfl _

theorem exec_conditionalStore {p : Instr × Width} (hp : p ∈ conditionalStores base rt offset)
    (ha : Allowed p.1 s) : exec p.1 s = storeConditional rt (effAddr s base offset) p.2 s := by
  simp only [conditionalStores, List.mem_cons, List.not_mem_nil, or_false] at hp
  obtain rfl | rfl := hp
  · rfl
  · exact require64_of_allowed ha rfl _

theorem exec_unalignedLoad {p : Instr × Width} (hp : p ∈ unalignedLoads base rt offset) (ha : Allowed p.1 s) :
    ∃ f : DWord → DWord, exec p.1 s = retireLoad rt f (readUnit (effAddr s base offset) p.2 s) := by
  simp only [unalignedLoads, List.mem_cons, List.not_mem_nil, or_false] at hp
  obtain rfl | rfl | rfl | rfl := hp
  · exact ⟨_, rfl⟩
  · exact ⟨_, rfl⟩
  · exact ⟨_, require64_of_allowed ha rfl _⟩
  · exact ⟨_, require64_of_allowed ha rfl _⟩

theorem exec_unalignedStore {p : Instr × Width} (hp : p ∈ unalignedStores base rt offset) (ha : Allowed p.1 s) :
    ∃ (first last : Nat) (u : DWord),
      exec p.1 s = retireStore (writeUnitBytes (effAddr s base offset) p.2 first last u s) := by
  simp only [unalignedStores, List.mem_cons, List.not_mem_nil, or_false] at hp
  obtain rfl | rfl | rfl | rfl := hp
  · exact ⟨_, _, _, rfl⟩
  · exact ⟨_, _, _, rfl⟩
  · exact ⟨_, _, _, require64_of_allowed ha rfl _⟩
  · exact ⟨_, _, _, require64_of_allowed ha rfl _⟩

-- The exception of the access is the exception of the instruction.

variable {e : Exn} {u : State}

/-- Also of a linked load, whose checks and read are those of an aligned load (43 R336). -/
theorem enters_of_memRead_raised {p : Instr × Width × (Nat → DWord)}
    (hp : p ∈ alignedLoads base rt offset ++ linkedLoads base rt offset) (ha : Allowed p.1 s)
    (h : memRead (effAddr s base offset) p.2.1 s = .raised e u) : Enters (exec p.1 s) e u := by
  obtain hp | hp := List.mem_append.mp hp
  · obtain ⟨f, hexec, -⟩ := exec_alignedLoad hp ha
    rw [hexec, h]
    exact enters_raise e u
  · obtain ⟨f, hexec, -⟩ := exec_linkedLoad hp ha
    rw [hexec, loadLinked]
    cases ht : translateAligned (effAddr s base offset) p.2.1 .load s with
    | error x =>
      rw [memRead_error _ _ _ _ ht] at h
      cases h
      exact enters_raise e s
    | ok pa =>
      rw [memRead_ok _ _ _ _ ht] at h
      dsimp only
      rw [h]
      exact enters_raise e u

theorem enters_of_memWrite_raised {p : Instr × Width} (hp : p ∈ alignedStores base rt offset) (ha : Allowed p.1 s)
    (h : memWrite (effAddr s base offset) p.2 (s.reg rt) s = .raised e u) : Enters (exec p.1 s) e u := by
  rw [exec_alignedStore hp ha, h]
  exact enters_raise e u

/-- A conditional store makes its checks whether or not LLbit is set (43 R338). -/
theorem enters_of_translateAligned_error {p : Instr × Width}
    (hp : p ∈ alignedStores base rt offset ++ conditionalStores base rt offset) (ha : Allowed p.1 s)
    (h : translateAligned (effAddr s base offset) p.2 .store s = .error e) : Enters (exec p.1 s) e s := by
  obtain hp | hp := List.mem_append.mp hp
  · exact enters_of_memWrite_raised hp ha (memWrite_error _ _ _ _ _ h)
  · rw [exec_conditionalStore hp ha, storeConditional, h]
    exact enters_raise e s

/-- A conditional store meets the bus only where LLbit is set (43 R338). -/
theorem enters_of_storeAt_raised {p : Instr × Width} {pa : PAddr}
    (hp : p ∈ alignedStores base rt offset ++ (if s.llbit then conditionalStores base rt offset else []))
    (ha : Allowed p.1 s) (ht : translateAligned (effAddr s base offset) p.2 .store s = .ok pa)
    (h : storeAt (effAddr s base offset) pa p.2 (s.reg rt) s = .raised e u) : Enters (exec p.1 s) e u := by
  obtain hp | hp := List.mem_append.mp hp
  · exact enters_of_memWrite_raised hp ha ((memWrite_ok _ _ _ _ _ ht).trans h)
  · cases hll : s.llbit with
    | false => simp [hll] at hp
    | true =>
      rw [hll, if_pos rfl] at hp
      rw [exec_conditionalStore hp ha, storeConditional, ht]
      dsimp only
      rw [hll, if_pos rfl, h]
      exact enters_raise e u

theorem enters_of_readUnit_raised {p : Instr × Width} (hp : p ∈ unalignedLoads base rt offset)
    (ha : Allowed p.1 s) (h : readUnit (effAddr s base offset) p.2 s = .raised e u) :
    Enters (exec p.1 s) e u := by
  obtain ⟨f, hexec⟩ := exec_unalignedLoad hp ha
  rw [hexec, h]
  exact enters_raise e u

end

end Sys2Proof.Machine

open Sys2Proof Sys2Proof.Machine Sys2Proof.Safety

/-- Settles O32: a misaligned address fails the first check of `translateAligned`, before translation and the bus. -/
theorem misalignedAccessRaises : Obligations.MisalignedAccessRaises := by
  intro s base rt offset ea
  constructor
  · intro p hp ha hal
    exact enters_of_memRead_raised hp ha (memRead_error _ _ _ _ (translateAligned_of_misaligned .load s hal))
  · intro p hp ha hal
    exact enters_of_translateAligned_error hp ha (translateAligned_of_misaligned .store s hal)

/-- Settles O33: with the alignment check passed, and for an unaligned form with none to pass, translation answers. -/
theorem translationFaultRaises : Obligations.TranslationFaultRaises := by
  intro s base rt offset e ea
  refine ⟨fun ht => ⟨fun p hp ha hal => ?load, fun p hp ha => ?unalignedLoad⟩,
    fun ht => ⟨fun p hp ha hal => ?store, fun p hp ha => ?unalignedStore⟩⟩
  case load =>
    have hta := (translateAligned_of_aligned .load s hal).trans ht
    exact enters_of_memRead_raised hp ha (memRead_error _ _ _ _ hta)
  case unalignedLoad => exact enters_of_readUnit_raised hp ha (readUnit_error _ _ _ _ ht)
  case store => exact enters_of_translateAligned_error hp ha ((translateAligned_of_aligned .store s hal).trans ht)
  case unalignedStore =>
    obtain ⟨first, last, u, hexec⟩ := exec_unalignedStore hp ha
    rw [hexec, writeUnitBytes_error _ _ _ _ _ _ _ ht]
    exact enters_raise e s

/-- Settles O35: the access makes the exception of the bus's answer, and an access that faults writes nothing. -/
theorem busFaultRaises : Obligations.BusFaultRaises := by
  intro s u base rt offset pa ea
  refine ⟨fun p hp ha ht => ?load, fun p hp ha ht => ?unalignedLoad, fun p hp ha ht => ?store, fun hi ht => ?fetch⟩
  case load =>
    have henters {e : Exn} (h : loadAt ea pa p.2.1 s = .raised e u) : Enters (exec p.1 s) e u :=
      enters_of_memRead_raised hp ha ((memRead_ok _ _ _ _ ht).trans h)
    exact ⟨fun hb => ⟨henters (loadAt_of_unmapped hb), mem_of_busRead hb⟩,
      fun hb => ⟨henters (loadAt_of_deviceMisaligned hb), mem_of_busRead hb⟩⟩
  case unalignedLoad =>
    intro unit
    have hunit : unitAddr pa p.2 = unit := unitAddr_eq_ofNat pa p.2
    have henters {e : Exn} (h : loadAt ea unit p.2 s = .raised e u) : Enters (exec p.1 s) e u :=
      enters_of_readUnit_raised hp ha ((readUnit_ok _ _ _ _ ht).trans (hunit ▸ h))
    exact ⟨fun hb => ⟨henters (loadAt_of_unmapped hb), mem_of_busRead hb⟩,
      fun hb => ⟨henters (loadAt_of_deviceMisaligned hb), mem_of_busRead hb⟩⟩
  case store =>
    intro v
    have hv : truncateTo p.2 (s.reg rt) = v := truncateTo_eq_ofNat p.2 (s.reg rt)
    have henters {e : Exn} (h : storeAt ea pa p.2 (s.reg rt) s = .raised e u) : Enters (exec p.1 s) e u :=
      enters_of_storeAt_raised hp ha ht h
    exact ⟨fun hb => ⟨henters (storeAt_of_unmapped (hv ▸ hb)), mem_of_busWrite_fault hb (by simp)⟩,
      fun hb => ⟨henters (storeAt_of_deviceMisaligned (hv ▸ hb)), mem_of_busWrite_fault hb (by simp)⟩⟩
  case fetch =>
    exact ⟨fun hb => ⟨fetchExceptionTaken s u _ hi (fetch_of_unmapped ht hb), mem_of_busRead hb⟩,
      fun hb => ⟨fetchExceptionTaken s u _ hi (fetch_of_deviceMisaligned ht hb), mem_of_busRead hb⟩⟩
end

section
/-! Aligned loads and stores that complete, from memory and from a device (43 R312 to R318, R323 to R326; 20 R105,
R125). -/

namespace Sys2Proof.Machine

open Sys2Proof.Safety

theorem toNat_truncateTo_lt (w : Width) (v : DWord) : (truncateTo w v).toNat < 2 ^ (8 * widthBytes w) := by
  rw [toNat_truncateTo]
  exact Nat.mod_lt _ (Nat.two_pow_pos _)

section
variable {s u : State} {base rt : RegNum} {offset : BitVec 16} {pa : PAddr}

/-- An aligned load whose read succeeds writes the extension of the value read, in the state that the read left. -/
theorem writesReg_of_loadAt_ok {p : Instr × Width × (Nat → DWord)} {v : DWord}
    (hp : p ∈ alignedLoads base rt offset) (ha : Allowed p.1 s)
    (ht : translateAligned (effAddr s base offset) p.2.1 .load s = .ok pa)
    (h : loadAt (effAddr s base offset) pa p.2.1 s = .ok (truncateTo p.2.1 v) u) :
    WritesReg (exec p.1 s) u rt (p.2.2 (truncateTo p.2.1 v).toNat) := by
  obtain ⟨f, hexec, hf⟩ := exec_alignedLoad hp ha
  rw [hexec, memRead_ok _ _ _ _ ht, h]
  exact writesReg_retire u rt _ _ (hf _ (toNat_truncateTo_lt _ _))

/-- An aligned store whose write succeeds retires in the state that the write left. -/
theorem exec_eq_retire_of_storeAt_ok {p : Instr × Width} (hp : p ∈ alignedStores base rt offset) (ha : Allowed p.1 s)
    (ht : translateAligned (effAddr s base offset) p.2 .store s = .ok pa)
    (h : storeAt (effAddr s base offset) pa p.2 (s.reg rt) s = .ok u) : exec p.1 s = retire u := by
  rw [exec_alignedStore hp ha, memWrite_ok _ _ _ _ _ ht, h]
  rfl

/-- The low bytes of the register at the physical address, and nothing else (43 R323 to R326). -/
theorem stores_alignedStore {p : Instr × Width} (hw : Memory.wf s.mem = true)
    (hp : p ∈ alignedStores base rt offset) (ha : Allowed p.1 s)
    (ht : translateAligned (effAddr s base offset) p.2 .store s = .ok pa)
    (hm : regionKindAt s.bus pa.toNat = .memory) :
    Stores (exec p.1 s) s pa.toNat (widthBytes p.2) (s.reg rt).toNat := by
  have hfits := aligned_le pa p.2 (translateAligned_aligned ht)
  rw [exec_eq_retire_of_storeAt_ok hp ha ht (storeAt_memory _ pa p.2 _ s hm)]
  exact stores_retire s _ _ _ _ rfl
    (bytesStored_writeBytes s _ pa _ _ (widthBytes_le _) hfits hw rfl _ (truncateTo_byte p.2 (s.reg rt)))

end

end Sys2Proof.Machine

open Sys2Proof Sys2Proof.Machine Sys2Proof.Safety

/-- Settles O25: the value read is the big-endian one (`truncateTo_readBytes`), and the register takes its extension. -/
theorem alignedLoads_hold : Obligations.AlignedLoads := by
  intro s base rt offset pa p hp ha ht hm
  rw [← truncateTo_readBytes s.mem pa p.2.1 (translateAligned_aligned ht)]
  exact writesReg_of_loadAt_ok hp ha ht (loadAt_memory _ pa _ s hm)

/-- Settles O27: an aligned store writes the bytes of the register at its physical address. -/
theorem alignedStores_hold : Obligations.AlignedStores :=
  fun _ _ _ _ _ hw _ hp ha ht hm => stores_alignedStore hw hp ha ht hm

/-- Settles O36: the bus hands the request to the device, whose answer decides; its faults are those of O35. -/
theorem deviceAccess : Obligations.DeviceAccess := by
  intro s base rt offset pa accepts hdev ea asked
  refine ⟨fun p hp ha ht => ?load, fun p hp ha ht => ?store⟩
  case load =>
    have hfaults (u : State) := (busFaultRaises s u base rt offset pa).1 p (List.mem_append_left _ hp) ha ht
    have hask := busRead_device (w := p.2.1) (.read pa p.2.1) hdev
    refine ⟨fun hw => ?_, fun hw => ((hfaults s).2 (hask.trans (askDevice_refused s _ hw))).1⟩
    have hanswer := hask.trans (askDevice_accepted s _ hw)
    rcases hans : Config.deviceAnswer s.busTick (.read pa p.2.1) with v | - | - <;> rw [hans] at hanswer
    · obtain ⟨t, hexec, hregs, hhilo, hcp0, htlb, hmem, ⟨hinc, hbus, htick⟩, hadv⟩ :=
        writesReg_of_loadAt_ok hp ha ht (loadAt_of_ok hanswer)
      rw [toNat_truncateTo] at hregs
      exact ⟨t, hexec, hregs, hhilo, hcp0, htlb, hmem, ⟨htick, hbus, hinc⟩, hadv⟩
    · exact ((hfaults _).1 hanswer).1
    · exact ((hfaults _).2 hanswer).1
  case store =>
    have hfaults (u : State) := (busFaultRaises s u base rt offset pa).2.2.1 p (List.mem_append_left _ hp) ha ht
    have hask := busWrite_device (w := p.2) (BitVec.ofNat 64 ((s.reg rt).toNat % 2 ^ (8 * widthBytes p.2))) hdev
    refine ⟨fun hw => ?_, fun hw => ((hfaults s).2 (hask.trans (askDevice_refused s _ hw))).1⟩
    have hanswer := hask.trans (askDevice_accepted s _ hw)
    rcases hans : Config.deviceAnswer s.busTick
      (.write pa p.2 (BitVec.ofNat 64 ((s.reg rt).toNat % 2 ^ (8 * widthBytes p.2)))) with x | - | - <;>
      rw [hans] at hanswer
    · rw [← truncateTo_eq_ofNat] at hanswer
      obtain ⟨t, hexec, hregs, hhilo, hcp0, htlb, hmem, ⟨hinc, hbus, htick⟩, hadv⟩ :=
        onlyAdvances_retire { s with busTick := s.busTick + 1 }
      exact ⟨t, (exec_eq_retire_of_storeAt_ok hp ha ht (storeAt_of_ok hanswer)).trans hexec, hregs, hhilo, hcp0, htlb,
        hmem, ⟨htick, hbus, hinc⟩, hadv⟩
    · exact ((hfaults _).1 hanswer).1
    · exact ((hfaults _).2 hanswer).1
end

section
/-! The byte writes of a partial unaligned store (43 R311, R331): the bytes that meet memory are stored one after
another, and the first that meets none ends them. -/

namespace Sys2Proof.Machine

open Sys2Proof.Safety

-- Stored bytes.

theorem bytesStored_zero (s : State) (a v : Nat) : BytesStored s s a 0 v :=
  ⟨fun _ hi => absurd hi (Nat.not_lt_zero _), fun _ _ => rfl⟩

/-- One byte and the bytes after it. -/
theorem bytesStored_cons {s t u : State} {a k v : Nat} (hfirst : BytesStored s t a 1 (v / 256 ^ k))
    (hrest : BytesStored t u (a + 1) k v) : BytesStored s u a (k + 1) v := by
  obtain ⟨hbyte, hkept⟩ := hfirst
  obtain ⟨hbytes, hkept'⟩ := hrest
  refine ⟨fun i hi => ?_, fun x hx => ?_⟩
  · cases i with
    | zero =>
      rw [hkept' _ (by omega), hbyte 0 Nat.one_pos]
      simp
    | succ i =>
      rw [show a + (i + 1) = a + 1 + i by omega, hbytes i (by omega), show k + 1 - 1 - (i + 1) = k - 1 - i by omega]
  · rw [hkept' x (by omega), hkept x (by omega)]

/-- Only the bytes of the value count. -/
theorem bytesStored_congr {s t : State} {a n v v' : Nat} (h : BytesStored s t a n v)
    (hv : ∀ i, i < n → v / 256 ^ (n - 1 - i) % 256 = v' / 256 ^ (n - 1 - i) % 256) : BytesStored s t a n v' :=
  ⟨fun i hi => (h.1 i hi).trans (hv i hi), h.2⟩

/-- A byte written to memory. -/
theorem bytesStored_byte (s : State) (pa : PAddr) (v : DWord) (hw : Memory.wf s.mem = true) :
    BytesStored s { s with mem := writeBytes s.mem pa 1 (truncateTo .byte v) } pa.toNat 1 v.toNat :=
  bytesStored_writeBytes s _ pa 1 _ (by decide) pa.isLt hw rfl _ (truncateTo_byte .byte v)

theorem toNat_add_ofNat (pa : PAddr) {i : Nat} (h : pa.toNat + i < 2 ^ 36) :
    (pa + BitVec.ofNat 36 i).toNat = pa.toNat + i := by
  rw [BitVec.toNat_add, BitVec.toNat_ofNat]
  omega

-- The run of byte writes.

section
variable (ea : DWord) {pa : PAddr} {n : Nat} (u : DWord)

/-- The first `k` bytes, all in memory, are stored, and the run goes on after them. -/
theorem writeByteRun_memory {k : Nat} (count : Nat) : ∀ {first : Nat} {s : State}, Memory.wf s.mem = true →
    first + k ≤ n → pa.toNat + n ≤ 2 ^ 36 →
    (∀ j, j < k → regionKindAt s.bus (pa.toNat + first + j) = .memory) →
    ∃ m : Memory, Memory.wf m = true ∧ writeByteRun ea pa n u first (k + count) s =
        writeByteRun ea pa n u (first + k) count { s with mem := m } ∧
      BytesStored s { s with mem := m } (pa.toNat + first) k (u.toNat / 256 ^ (n - first - k)) := by
  induction k with
  | zero =>
    intro first s hw _ _ _
    exact ⟨s.mem, hw, by rw [Nat.zero_add, Nat.add_zero], bytesStored_zero s _ _⟩
  | succ k ih =>
    intro first s hw hn hfits hm
    have haddr : (pa + BitVec.ofNat 36 first).toNat = pa.toNat + first := toNat_add_ofNat pa (by omega)
    let s' : State := { s with
      mem := writeBytes s.mem (pa + BitVec.ofNat 36 first) 1 (truncateTo .byte (u >>> (8 * (n - 1 - first)))) }
    have hstore : storeAt ea (pa + BitVec.ofNat 36 first) .byte (u >>> (8 * (n - 1 - first))) s = .ok s' :=
      storeAt_memory _ _ _ _ _ (by rw [haddr]; exact hm 0 (by omega))
    have hfirst : BytesStored s s' (pa.toNat + first) 1 (u.toNat / 256 ^ (n - 1 - first)) := by
      have h := bytesStored_byte s (pa + BitVec.ofNat 36 first) (u >>> (8 * (n - 1 - first))) hw
      rwa [haddr, BitVec.toNat_ushiftRight, Nat.shiftRight_eq_div_pow, Nat.pow_mul] at h
    obtain ⟨m, hw', hrun, hrest⟩ := ih (first := first + 1) (s := s') (wf_writeBytes _ _ _ _ hw) (by omega) hfits
      fun j hj => by rw [show pa.toNat + (first + 1) + j = pa.toNat + first + (j + 1) by omega]; exact hm _ (by omega)
    refine ⟨m, hw', ?_, ?_⟩
    · rw [show k + 1 + count = k + count + 1 by omega, writeByteRun, hstore,
        show first + (k + 1) = first + 1 + k by omega]
      exact hrun
    · rw [show n - (first + 1) - k = n - first - (k + 1) by omega] at hrest
      refine bytesStored_cons ?_ hrest
      rwa [Nat.div_div_eq_div_mul, ← Nat.pow_add, show n - first - (k + 1) + k = n - 1 - first by omega]

/-- The run ends at the byte that meets no memory, with the bytes before it stored (43 R331). -/
theorem writeByteRun_unmapped {k first count : Nat} {s : State} (hw : Memory.wf s.mem = true) (hk : k < count)
    (hn : first + count ≤ n) (hfits : pa.toNat + n ≤ 2 ^ 36)
    (hm : ∀ j, j < k → regionKindAt s.bus (pa.toNat + first + j) = .memory)
    (hfault : regionKindAt s.bus (pa.toNat + first + k) = .unmapped) :
    ∃ m : Memory, writeByteRun ea pa n u first count s = .raised (.busData ea) { s with mem := m } ∧
      BytesStored s { s with mem := m } (pa.toNat + first) k (u.toNat / 256 ^ (n - first - k)) := by
  obtain ⟨rest, rfl⟩ := Nat.exists_eq_add_of_le hk
  obtain ⟨m, -, hrun, hstored⟩ := writeByteRun_memory ea u (n := n) (rest + 1) hw (by omega) hfits hm
  refine ⟨m, ?_, hstored⟩
  have haddr : (pa + BitVec.ofNat 36 (first + k)).toNat = pa.toNat + first + k :=
    (toNat_add_ofNat pa (by omega)).trans (by omega)
  have hbus : busWrite (pa + BitVec.ofNat 36 (first + k)) .byte
      (truncateTo .byte (u >>> (8 * (n - 1 - (first + k))))) { s with mem := m } =
      (.unmapped, { s with mem := m }) := by
    rw [busWrite, haddr, hfault]
  rw [show k.succ + rest = k + (rest + 1) by omega, hrun, writeByteRun, storeAt_of_unmapped hbus]

end

-- The unit of an unaligned access.

theorem widthBytes_dvd (w : Width) : widthBytes w ∣ 4096 := by
  cases w <;> decide

theorem widthBytes_pos (w : Width) : 0 < widthBytes w := by
  cases w <;> decide

/-- The unit starts as many bytes before the physical address as the virtual address has as its offset. -/
theorem unitAddr_add_offset {ea : DWord} {acc : AccessKind} {s : State} {pa : PAddr} (w : Width)
    (ht : translate ea acc s = .ok pa) : (unitAddr pa w).toNat + ea.toNat % widthBytes w = pa.toNat := by
  have hoffset : pa.toNat % widthBytes w = ea.toNat % widthBytes w := by
    rw [← Nat.mod_mod_of_dvd pa.toNat (widthBytes_dvd w), translate_mod_4096 ht,
      Nat.mod_mod_of_dvd _ (widthBytes_dvd w)]
  rw [toNat_unitAddr, ← hoffset, Nat.div_add_mod']

theorem unitAddr_le (pa : PAddr) (w : Width) : (unitAddr pa w).toNat + widthBytes w ≤ 2 ^ 36 :=
  aligned_le _ w (by rw [toNat_unitAddr, Nat.mul_mod_left])

/-- A byte of a value moved up by `c` bytes in a unit of `m`. -/
theorem shifted_byte (x : Nat) {c d m : Nat} (h : c + d < m) :
    x * 256 ^ c % 256 ^ m / 256 ^ (c + d) % 256 = x / 256 ^ d % 256 := by
  obtain ⟨e, rfl⟩ := Nat.exists_eq_add_of_lt h
  rw [Nat.add_assoc (c + d), Nat.pow_add 256 (c + d), Nat.mod_mul_right_div_self,
    Nat.mod_mod_of_dvd _ (Dvd.intro_left (256 ^ e) (Nat.pow_succ 256 e).symm), Nat.pow_add, Nat.mul_comm (256 ^ c),
    Nat.mul_div_mul_right _ _ (Nat.pow_pos (by decide))]

-- The partial store.

/-- A store of the `n` low bytes of `v` at `a` whose byte `k` meets no memory raises a bus error, and the `k` bytes
before it stay written (43 R331). -/
def FaultsAfterBytes (r : Result) (s : State) (ea : DWord) (a n v : Nat) : Prop :=
  ∀ k, k < n → (∀ j, j < k → regionKindAt s.bus (a + j) = .memory) → regionKindAt s.bus (a + k) = .unmapped →
    ∃ u, u = { s with mem := u.mem } ∧ BytesStored s u a k (v / 256 ^ (n - k)) ∧ Enters r (.busData ea) u

section
variable {s : State} {ea : DWord} {pa : PAddr} {w : Width} {u : DWord} (hw : Memory.wf s.mem = true)
  (ht : translate ea .store s = .ok pa)
include hw ht

/-- `v` has the bytes `first .. first + n - 1` of the unit's value `u`. -/
theorem faultsAfterBytes_writeUnitBytes {first last n v : Nat} (hn : first + n = last + 1)
    (hlast : last < widthBytes w) (hpart : n < widthBytes w)
    (hv : ∀ i, i < n → u.toNat / 256 ^ (widthBytes w - 1 - first - i) % 256 = v / 256 ^ (n - 1 - i) % 256) :
    FaultsAfterBytes (retireStore (writeUnitBytes ea w first last u s)) s ea ((unitAddr pa w).toNat + first) n v := by
  intro k hk hm hfault
  have hwhole : ¬(first = 0 ∧ last = widthBytes w - 1) := by omega
  obtain ⟨m, hrun, hstored⟩ := writeByteRun_unmapped ea u hw hk (by omega) (unitAddr_le pa w) hm hfault
  refine ⟨{ s with mem := m }, rfl, bytesStored_congr hstored fun i hi => ?_, ?_⟩
  · rw [Nat.div_div_eq_div_mul, Nat.div_div_eq_div_mul, ← Nat.pow_add, ← Nat.pow_add,
      show widthBytes w - first - k + (k - 1 - i) = widthBytes w - 1 - first - i by omega,
      show n - k + (k - 1 - i) = n - 1 - i by omega]
    exact hv i (by omega)
  · rw [writeUnitBytes, ht]
    dsimp only
    rw [if_neg hwhole, show last + 1 - first = n by omega, hrun]
    exact enters_raise _ _

/-- The left forms store the upper bytes of the register from the address on (43 R327, R329). -/
theorem faultsAfterBytes_left {v : Nat} (hu : u.toNat = v) (hpart : widthBytes w - unitOffset ea w < widthBytes w) :
    FaultsAfterBytes (retireStore (writeUnitBytes ea w (unitOffset ea w) (widthBytes w - 1) u s)) s ea pa.toNat
      (widthBytes w - unitOffset ea w) v := by
  have hlt : unitOffset ea w < widthBytes w := Nat.mod_lt _ (widthBytes_pos w)
  have h := faultsAfterBytes_writeUnitBytes (u := u) (v := v) hw ht (first := unitOffset ea w)
    (last := widthBytes w - 1) (by omega) (by omega) hpart fun i hi => by
      rw [hu, show widthBytes w - 1 - unitOffset ea w - i = widthBytes w - unitOffset ea w - 1 - i by omega]
  rwa [unitOffset, unitAddr_add_offset w ht] at h

/-- The right forms store the lower bytes of the register up to the address (43 R328, R330). -/
theorem faultsAfterBytes_right {v : Nat}
    (hu : u.toNat = v * 256 ^ (widthBytes w - 1 - unitOffset ea w) % 256 ^ widthBytes w)
    (hpart : unitOffset ea w + 1 < widthBytes w) :
    FaultsAfterBytes (retireStore (writeUnitBytes ea w 0 (unitOffset ea w) u s)) s ea (pa.toNat - unitOffset ea w)
      (unitOffset ea w + 1) v := by
  have h := faultsAfterBytes_writeUnitBytes (u := u) (v := v) hw ht (first := 0) (last := unitOffset ea w)
    (Nat.zero_add _) (by omega) hpart fun i hi => by
      rw [hu, show widthBytes w - 1 - 0 - i = widthBytes w - 1 - unitOffset ea w + (unitOffset ea w - i) by omega,
        shifted_byte v (by omega)]
      rfl
  rwa [show (unitAddr pa w).toNat + 0 = pa.toNat - unitOffset ea w from
    Nat.eq_sub_of_add_eq (unitAddr_add_offset w ht)] at h

end

end Sys2Proof.Machine

open Sys2Proof Sys2Proof.Machine Sys2Proof.Safety

/-- Settles O34: each of the four forms stores bytes of the register one at a time, the left forms from the address on
and the right forms up to it. -/
theorem partialStoreFault : Obligations.PartialStoreFault := by
  intro s base rt offset pa k hw ht ea low all b4 b8 p hp a n hpart ha hk hm hfault
  refine (?_ : FaultsAfterBytes (exec p.1 s) s ea a n p.2.2.2.2) k hk hm hfault
  simp only [List.mem_cons, List.not_mem_nil, or_false] at hp
  have hlow : (s.regLow rt).toNat = low := toNat_lowWord (s.reg rt)
  have hzext (v : Word) : (zext v).toNat = v.toNat := BitVec.toNat_setWidth_of_le (by decide)
  obtain rfl | rfl | rfl | rfl := hp
  · refine faultsAfterBytes_left (w := .word) hw ht ?_ hpart
    rw [BitVec.toNat_ushiftRight, hzext, hlow, Nat.shiftRight_eq_div_pow, Nat.pow_mul]
    rfl
  · refine faultsAfterBytes_right (w := .word) hw ht ?_ hpart
    rw [hzext, BitVec.toNat_shiftLeft, hlow, Nat.shiftLeft_eq, Nat.pow_mul]
    rfl
  · rw [show exec (.sdl base rt offset) s = _ from require64_of_allowed ha rfl _]
    refine faultsAfterBytes_left (w := .dword) hw ht ?_ hpart
    rw [BitVec.toNat_ushiftRight, Nat.shiftRight_eq_div_pow, Nat.pow_mul]
    rfl
  · rw [show exec (.sdr base rt offset) s = _ from require64_of_allowed ha rfl _]
    refine faultsAfterBytes_right (w := .dword) hw ht ?_ hpart
    rw [BitVec.toNat_shiftLeft, Nat.shiftLeft_eq, Nat.pow_mul]
    rfl
end

section
/-! A stored word that the next fetch reads (20 R128; 70 R512): the fetch finds the word that the store left, and its
decoding is the instruction that was encoded. -/

namespace Sys2Proof.Machine

open Sys2Proof.Safety

-- Decoding what was encoded (30 R154 to R157).

section
variable {w : Word}

theorem decodeWord_special (h : opOf w = 0x00#6) : decodeWord w = decodeSpecial w := by
  rw [decodeWord, h]
  rfl

theorem decodeWord_regimm (h : opOf w = 0x01#6) : decodeWord w = decodeRegimm w := by
  rw [decodeWord, h]
  rfl

theorem decodeWord_cop0 (h : opOf w = 0x10#6) : decodeWord w = decodeCop0 w := by
  rw [decodeWord, h]
  rfl

end

/-- The selecting fields of each form lead the map of the instruction to its own entry, which reads the operands
back from their fields. -/
theorem decodeWord_encode (i : Instr) : decodeWord (encode i) = .ok i := by
  cases i with
  | add | addu | sub | subu | dadd | daddu | dsub | dsubu | slt | sltu | and | or | xor | nor | sll | srl
  | sra | sllv | srlv | srav | dsll | dsrl | dsra | dsll32 | dsrl32 | dsra32 | dsllv | dsrlv | dsrav | mfhi
  | mflo | mthi | mtlo | mult | multu | div | divu | dmult | dmultu | ddiv | ddivu | jr | jalr | sync =>
    rw [encode, decodeWord_special (opOf_formR ..), decodeSpecial, functOf_formR]
    change Except.ok _ = _
    simp only [rsOf_formR, rtOf_formR, rdOf_formR, saOf_formR]
  | syscall | breakpoint =>
    rw [encode, decodeWord_special (opOf_formCode ..), decodeSpecial, functOf_formCode]
    change Except.ok _ = _
    simp only [codeOf_formCode]
  | tge | tgeu | tlt | tltu | teq | tne =>
    rw [encode, decodeWord_special (opOf_formTrap ..), decodeSpecial, functOf_formTrap]
    change Except.ok _ = _
    simp only [rsOf_formTrap, rtOf_formTrap, tcodeOf_formTrap]
  | bltz | bgez | bltzal | bgezal | bltzl | bgezl | bltzall | bgezall | tgei | tgeiu | tlti | tltiu | teqi
  | tnei =>
    rw [encode, decodeWord_regimm (opOf_formI ..), decodeRegimm, rtOf_formI]
    change Except.ok _ = _
    simp only [rsOf_formI, immOf_formI]
  | mfc0 | dmfc0 | mtc0 | dmtc0 =>
    rw [encode, decodeWord_cop0 (opOf_formR ..), decodeCop0, rsOf_formR, if_neg (by decide)]
    change Except.ok _ = _
    simp only [rtOf_formR, rdOf_formR]
  | eret | tlbr | tlbwi | tlbwr | tlbp => rfl
  | j | jal | cop1 | cop2 | cop3 =>
    rw [encode, decodeWord, opOf_formJ]
    change Except.ok _ = _
    simp only [indexOf_formJ]
  | addi | addiu | daddi | daddiu | slti | sltiu | andi | ori | xori | lui | beq | bne | blez | bgtz | beql
  | bnel | blezl | bgtzl | lb | lbu | lh | lhu | lw | lwu | ld | lwl | lwr | ldl | ldr | sb | sh | sw | sd
  | swl | swr | sdl | sdr | ll | lld | sc | scd | cache | lwc1 | lwc2 | ldc1 | ldc2 | swc1 | swc2 | sdc1
  | sdc2 =>
    rw [encode, decodeWord, opOf_formI]
    change Except.ok _ = _
    simp only [rsOf_formI, rtOf_formI, immOf_formI]

/-- The first `j` of `n` stored bytes, read together, are the upper `j` bytes of the value. -/
theorem bigEndian_of_bytesStored {s t : State} {a n v : Nat} (h : BytesStored s t a n v) {j : Nat} (hj : j ≤ n) :
    bigEndian t.mem a j = v / 256 ^ (n - j) % 256 ^ j := by
  induction j with
  | zero => simp [bigEndian, Nat.mod_one]
  | succ j ih =>
    rw [bigEndian, ih (by omega), h.1 j (by omega), show n - 1 - j = n - (j + 1) by omega,
      show n - j = n - (j + 1) + 1 by omega, Nat.pow_succ, ← Nat.div_div_eq_div_mul, Nat.pow_succ',
      Nat.mod_mul, Nat.mul_comm, Nat.add_comm]

end Sys2Proof.Machine

open Sys2Proof Sys2Proof.Machine Sys2Proof.Safety

/-- Settles O12: the store changes nothing that translation or the interrupt check sees, and the four bytes it leaves
at the physical address of the next fetch are the word of `i`. -/
theorem storeSeenByNextFetch : Obligations.StoreSeenByNextFetch := by
  intro s pa pa' base rt offset i hie hwf hpend hf hw htr hkind hstore hword
  have hsw : (Instr.sw base rt offset, Width.word) ∈ alignedStores base rt offset := by
    simp [alignedStores]
  have hallowed : Allowed (.sw base rt offset) s := ⟨nofun, nofun⟩
  -- The step of the store.
  obtain ⟨t, hexec, -, -, hcp0, ⟨htlb, -⟩, hbytes, ⟨-, hbus, -⟩, hpc, -, -, -⟩ :=
    stores_alignedStore hwf hsw hallowed hstore hkind
  rw [hpend] at hpc
  have hstep := step_of_encode (interruptReady_of_ie hie) hf hw (decodeWord_encode _) hexec
  let t' := t.setCp0 (t.cp0.tick t.countIncrement)
  have hpc' : t'.pc = s.pc + 4#64 := hpc
  have hstatus : t'.cp0.status = s.cp0.status := (tick_status _ _).trans (by rw [hcp0])
  have hhi : t'.cp0.entryHi = s.cp0.entryHi := (tick_entryHi _ _).trans (by rw [hcp0])
  -- The fetch after it.
  have hie' : bitAt t'.cp0.status 0 = false := by rw [hstatus]; exact hie
  have hf' : FetchesFrom t' pa' :=
    ⟨by rw [hpc', translateAligned_congr_of_status _ _ _ hstatus hhi htlb, htr], by rw [setCp0_bus, hbus, hkind]⟩
  have hw' : bigEndian t'.mem pa'.toNat 4 = (encode i).toNat := by
    rw [setCp0_mem, bigEndian_of_bytesStored hbytes (Nat.le_refl 4), ← hword, low32u]
    simp [widthBytes]
  refine ⟨t', hstep, hpc', step_of_decodeWord (interruptReady_of_ie hie') hf' ?_⟩
  rw [hw', BitVec.ofNat_toNat, BitVec.setWidth_eq, decodeWord_encode]
end

section
/-! What the encoder makes of an instruction is decoded to that instruction again (30 R150 to R157, R170). -/

open Sys2Proof Sys2Proof.Machine Sys2Proof.Safety

/-- Settles O2: the four bytes make the encoded word again, and that decodes to the instruction. -/
theorem decodeEncodeAgree : Obligations.DecodeEncodeAgree := by
  intro i rest _
  rw [decodeBytes_bytesOfWord, decodeWord_encode]
  rfl

/-- Settles O1: the instructions encode to the words, and a word that an instruction encodes to decodes to it. -/
theorem sampleWordsDecode : Obligations.SampleWordsDecode := by
  intro p hp
  have hencode : encode p.2 = p.1 := by
    revert p
    decide
  exact ⟨hencode ▸ decodeWord_encode p.2, hencode⟩
end

section
/-! The decoder and the opcode table (30 R154 to R160, R163): each opcode map answers by the bits under one mask, and
over these bits its entries are the rows of the table and the rest are the reserved words. -/

namespace Sys2Proof.Machine

open Sys2Proof.Safety

-- The map of a word, and the bits that select an entry of it.

/-- The maps of R154 to R157. -/
inductive OpcodeMap where
  | primary
  | special
  | regimm
  | cop0
  | co

/-- The map in which the decoder finds a word, or finds that it is reserved. -/
def mapOf (w : Word) : OpcodeMap :=
  if opOf w = 0x00#6 then .special
  else if opOf w = 0x01#6 then .regimm
  else if opOf w = 0x10#6 then if (rsOf w).getLsbD 4 then .co else .cop0
  else .primary

/-- The bits that select an entry of the map. -/
def OpcodeMap.mask : OpcodeMap → Word
  | .primary => 0xFC000000#32
  | .special => 0xFC00003F#32
  | .regimm => 0xFC1F0000#32
  | .cop0 => 0xFFE00000#32
  | .co => 0xFE00003F#32

/-- The error of a word that has no entry in the map. -/
def OpcodeMap.error : OpcodeMap → DecodeError
  | .primary => .reservedPrimary
  | .special => .reservedSpecial
  | .regimm => .reservedRegimm
  | .cop0 => .reservedCop0
  | .co => .reservedCo

/-- Map `m` answers `r` for the selecting bits `v`: the instruction of the row whose match is `v`, or, for a `v` that
is reserved, the error of the map. -/
def OpcodeMap.Answers (m : OpcodeMap) (v : Word) (r : Except DecodeError Instr) : Prop :=
  match r with
  | .ok i => reservedWord v = false ∧ i.tableMask = m.mask ∧ i.tableMatch = v
  | .error e => reservedWord v = true ∧ e = m.error

variable {w : Word}

theorem mapOf_cases (w : Word) :
    (opOf w = 0x00#6 ∧ mapOf w = .special) ∨ (opOf w = 0x01#6 ∧ mapOf w = .regimm) ∨
      (opOf w = 0x10#6 ∧ (rsOf w).getLsbD 4 = true ∧ mapOf w = .co) ∨
      (opOf w = 0x10#6 ∧ (rsOf w).getLsbD 4 = false ∧ mapOf w = .cop0) ∨
      (opOf w ≠ 0x00#6 ∧ opOf w ≠ 0x01#6 ∧ opOf w ≠ 0x10#6 ∧ mapOf w = .primary) := by
  unfold mapOf
  split_ifs <;> simp_all

theorem opOf_and_mask (w : Word) (m : OpcodeMap) : opOf (w &&& m.mask) = opOf w := by
  rw [opOf, BitVec.extractLsb'_and]
  cases m <;> exact BitVec.and_allOnes

theorem functOf_and (w v : Word) : functOf (w &&& v) = functOf w &&& functOf v := BitVec.extractLsb'_and
theorem rtOf_and (w v : Word) : rtOf (w &&& v) = rtOf w &&& rtOf v := BitVec.extractLsb'_and
theorem rsOf_and (w v : Word) : rsOf (w &&& v) = rsOf w &&& rsOf v := BitVec.extractLsb'_and

theorem functOf_and_special (w : Word) : functOf (w &&& OpcodeMap.special.mask) = functOf w :=
  (functOf_and ..).trans BitVec.and_allOnes

theorem functOf_and_co (w : Word) : functOf (w &&& OpcodeMap.co.mask) = functOf w :=
  (functOf_and ..).trans BitVec.and_allOnes

theorem rtOf_and_regimm (w : Word) : rtOf (w &&& OpcodeMap.regimm.mask) = rtOf w :=
  (rtOf_and ..).trans BitVec.and_allOnes

theorem rsOf_and_cop0 (w : Word) : rsOf (w &&& OpcodeMap.cop0.mask) = rsOf w :=
  (rsOf_and ..).trans BitVec.and_allOnes

theorem rsOf_and_co_bit (w : Word) : (rsOf (w &&& OpcodeMap.co.mask)).getLsbD 4 = (rsOf w).getLsbD 4 := by
  rw [rsOf_and, BitVec.getLsbD_and]
  exact Bool.and_true _

theorem mapOf_and_mask_eq_iff (w : Word) (m : OpcodeMap) : mapOf (w &&& m.mask) = m ↔ mapOf w = m := by
  cases m <;> simp only [mapOf, opOf_and_mask, rsOf_and_cop0, rsOf_and_co_bit] <;> split_ifs <;> simp

-- What each map answers.

/-- The reserved words of SPECIAL (R163), by the bits that select an entry. -/
theorem reservedWord_special_iff (funct : BitVec 6) : reservedWord (0x00#6 ++ 0#20 ++ funct) = true ↔
    funct ∈ [0x01#6, 0x05#6, 0x0A#6, 0x0B#6, 0x0E#6, 0x15#6, 0x28#6, 0x29#6, 0x35#6, 0x37#6, 0x39#6, 0x3D#6] := by
  revert funct
  decide

/-- The reserved primary opcodes (R163), likewise. -/
theorem reservedWord_primary_iff (op : BitVec 6) :
    reservedWord (op ++ 0#26) = true ↔ op ∈ [0x1C#6, 0x1D#6, 0x1E#6, 0x1F#6, 0x33#6, 0x3B#6] := by
  revert op
  decide

theorem special_answers (h : opOf w = 0x00#6) :
    OpcodeMap.special.Answers (w &&& OpcodeMap.special.mask) (decodeSpecial w) := by
  rw [OpcodeMap.mask, and_mask_funct, h]
  unfold decodeSpecial
  generalize functOf w = funct
  split
  case h_53 => -- `funct` is none of the entries
    refine ⟨(reservedWord_special_iff funct).mpr ?_, rfl⟩
    simp only [imp_false, List.mem_cons, List.not_mem_nil, or_false] at *
    bv_omega
  all_goals exact ⟨rfl, rfl, rfl⟩

theorem regimm_answers (h : opOf w = 0x01#6) :
    OpcodeMap.regimm.Answers (w &&& OpcodeMap.regimm.mask) (decodeRegimm w) := by
  rw [OpcodeMap.mask, and_mask_regimm, h]
  unfold decodeRegimm
  generalize rtOf w = rt
  split
  case h_15 => exact ⟨by revert rt; decide, rfl⟩
  all_goals exact ⟨rfl, rfl, rfl⟩

theorem co_answers (h : opOf w = 0x10#6) (hrs : (rsOf w).getLsbD 4 = true) :
    OpcodeMap.co.Answers (w &&& OpcodeMap.co.mask) (decodeCop0 w) := by
  rw [OpcodeMap.mask, and_mask_co, h, hrs, decodeCop0, if_pos hrs]
  unfold decodeCo
  generalize functOf w = funct
  split
  case h_6 => exact ⟨by revert funct; decide, rfl⟩
  all_goals exact ⟨rfl, rfl, rfl⟩

theorem cop0_answers (h : opOf w = 0x10#6) (hrs : (rsOf w).getLsbD 4 = false) :
    OpcodeMap.cop0.Answers (w &&& OpcodeMap.cop0.mask) (decodeCop0 w) := by
  rw [OpcodeMap.mask, and_mask_cop0, h, decodeCop0, hrs, if_neg Bool.false_ne_true]
  generalize rsOf w = rs at hrs ⊢
  split
  case h_5 => exact ⟨by revert rs; decide, rfl⟩
  all_goals exact ⟨rfl, rfl, rfl⟩

theorem primary_answers (h0 : opOf w ≠ 0x00#6) (h1 : opOf w ≠ 0x01#6) (h16 : opOf w ≠ 0x10#6) :
    OpcodeMap.primary.Answers (w &&& OpcodeMap.primary.mask) (decodeWord w) := by
  rw [OpcodeMap.mask, and_mask_op]
  unfold decodeWord
  generalize opOf w = op at h0 h1 h16 ⊢
  split
  case h_1 => exact absurd rfl h0
  case h_2 => exact absurd rfl h1
  case h_3 => exact absurd rfl h16
  case h_59 => -- `op` is none of the entries
    refine ⟨(reservedWord_primary_iff op).mpr ?_, rfl⟩
    simp only [imp_false, List.mem_cons, List.not_mem_nil, or_false] at *
    bv_omega
  all_goals exact ⟨rfl, rfl, rfl⟩

-- Reserved words.

/-- The upper sixteen values of rs are those of the CO functions. -/
theorem sixteen_le_rs (rs : RegNum) : decide (16 ≤ rs.toNat) = rs.getLsbD 4 := by
  revert rs
  decide

/-- No reserved COP0 sub-opcode lies among them. -/
theorem reservedRs_of_bit {rs : RegNum} (h : rs.getLsbD 4 = true) :
    [0x02#5, 0x03#5, 0x06#5, 0x07#5, 0x08#5, 0x09#5, 0x0A#5, 0x0B#5, 0x0C#5, 0x0D#5, 0x0E#5, 0x0F#5].contains rs =
      false := by
  revert rs
  decide

theorem reservedWord_and_mask (w : Word) : reservedWord (w &&& (mapOf w).mask) = reservedWord w := by
  unfold reservedWord
  rw [opOf_and_mask, sixteen_le_rs, sixteen_le_rs]
  obtain ⟨hop, hm⟩ | ⟨hop, hm⟩ | ⟨hop, hrs, hm⟩ | ⟨hop, hrs, hm⟩ | ⟨h0, h1, h16, hm⟩ := mapOf_cases w <;> rw [hm]
  · simp only [hop, functOf_and_special, BitVec.reduceBEq, Bool.false_and]
  · simp only [hop, rtOf_and_regimm, BitVec.reduceBEq, Bool.false_and]
  · have hrs' := (rsOf_and_co_bit w).trans hrs
    simp only [hop, functOf_and_co, hrs, hrs', reservedRs_of_bit, BitVec.reduceBEq, Bool.false_and]
  · simp only [hop, rsOf_and_cop0, hrs, BitVec.reduceBEq, Bool.and_false, Bool.false_and]
  · simp only [beq_false_of_ne h0, beq_false_of_ne h1, beq_false_of_ne h16, Bool.false_and]

theorem decodeWord_answers (w : Word) : (mapOf w).Answers (w &&& (mapOf w).mask) (decodeWord w) := by
  obtain ⟨hop, hm⟩ | ⟨hop, hm⟩ | ⟨hop, hrs, hm⟩ | ⟨hop, hrs, hm⟩ | ⟨h0, h1, h16, hm⟩ := mapOf_cases w <;> rw [hm]
  · rw [decodeWord_special hop]
    exact special_answers hop
  · rw [decodeWord_regimm hop]
    exact regimm_answers hop
  · rw [decodeWord_cop0 hop]
    exact co_answers hop hrs
  · rw [decodeWord_cop0 hop]
    exact cop0_answers hop hrs
  · exact primary_answers h0 h1 h16

-- The decoder, by its answer.

theorem reservedWord_of_decodeWord_error {e : DecodeError} (h : decodeWord w = .error e) :
    reservedWord w = true ∧ e = (mapOf w).error := by
  have ha := decodeWord_answers w
  rw [h, OpcodeMap.Answers, reservedWord_and_mask] at ha
  exact ha

theorem row_of_decodeWord {i : Instr} (h : decodeWord w = .ok i) : reservedWord w = false ∧
    i.tableMask = (mapOf w).mask ∧ i.tableMatch = w &&& (mapOf w).mask := by
  have ha := decodeWord_answers w
  rw [h, OpcodeMap.Answers, reservedWord_and_mask] at ha
  exact ha

theorem decodeWord_error_iff (w : Word) : (∃ e, decodeWord w = .error e) ↔ reservedWord w = true := by
  cases hd : decodeWord w with
  | error e => simp [(reservedWord_of_decodeWord_error hd).1]
  | ok i => simp [(row_of_decodeWord hd).1]

end Sys2Proof.Machine

open Sys2Proof Sys2Proof.Machine Sys2Proof.Safety

/-- Settles O3: a decoded word has the row of its map's mask. Conversely a word that agrees with the encoding of `i`
under the mask of `i` lies in the same map, so it is not reserved and its row is that of `i`. -/
theorem decodeFollowsTable : Obligations.DecodeFollowsTable := by
  constructor
  · intro w i hd
    obtain ⟨-, hmask, hmatch⟩ := row_of_decodeWord hd
    rw [hmask, hmatch]
  · intro w i hw
    obtain ⟨hres, hmask, hmatch⟩ := row_of_decodeWord (decodeWord_encode i)
    have hbits : w &&& (mapOf (encode i)).mask = encode i &&& (mapOf (encode i)).mask := by
      rw [← hmask, hw, hmatch, hmask]
    have hmap : mapOf w = mapOf (encode i) := by
      rw [← mapOf_and_mask_eq_iff, hbits, mapOf_and_mask_eq_iff]
    have hres' : reservedWord w = false := by
      rw [← reservedWord_and_mask, hmap, hbits, reservedWord_and_mask, hres]
    cases hd : decodeWord w with
    | error e => exact absurd (reservedWord_of_decodeWord_error hd).1 (by rw [hres']; decide)
    | ok j =>
      obtain ⟨-, hmaskj, hmatchj⟩ := row_of_decodeWord hd
      exact ⟨j, rfl, by rw [hmaskj, hmap, hmask], by rw [hmatchj, hmap, hbits, hmatch]⟩
end

section
/-! The mode checks of the instructions (30 R159, R161 to R164; 60 R471, R472), and the step of a reserved word. -/

namespace Sys2Proof.Machine

open Sys2Proof.Safety

-- The two checks.

theorem requireCp0_of_not_usable {s : State} (h : s.cp0.usable = false) (r : Result) :
    requireCp0 s r = raise (.coprocessorUnusable 0) s := by
  rw [requireCp0, h, if_neg Bool.false_ne_true]

theorem requireCp0_of_usable {s : State} (h : s.cp0.usable = true) (r : Result) : requireCp0 s r = r := by
  rw [requireCp0, h, if_pos rfl]

theorem require64_of_not_kernelMode {s : State} (h : s.cp0.kernelMode = false) (r : Result) :
    require64 s r = raise .reservedInstruction s := by
  rw [require64, Cp0.enabled64, h, if_neg Bool.false_ne_true]

-- The instructions that make them.

theorem exec_of_needsCp0 {i : Instr} (h : needsCp0 i = true) (s : State) : ∃ r, exec i s = requireCp0 s r := by
  cases i with
  | mfc0 | mtc0 | dmfc0 | dmtc0 | tlbr | tlbwi | tlbwr | tlbp | eret | cache => exact ⟨_, rfl⟩
  | _ => cases h

/-- DMFC0 and DMTC0 check that CP0 is usable before they check the mode (44 R367, R369). -/
theorem exec_of_is64 {i : Instr} (h : is64 i = true) (s : State) :
    ∃ r, exec i s = require64 s r ∨ (needsCp0 i = true ∧ exec i s = requireCp0 s (require64 s r)) := by
  cases i with
  | dmfc0 | dmtc0 => exact ⟨_, .inr ⟨rfl, rfl⟩⟩
  | dadd | daddu | dsub | dsubu | daddi | daddiu | dsll | dsrl | dsra | dsll32 | dsrl32 | dsra32 | dsllv | dsrlv
  | dsrav | dmult | dmultu | ddiv | ddivu | ld | sd | ldl | ldr | sdl | sdr | lwu | lld | scd =>
    exact ⟨_, .inl rfl⟩
  | _ => cases h

-- The step of a word that the decoder refuses.

theorem decodeExn_mapOf_error {c : Cp0} {w : Word} (h : opOf w = 0x10#6 → c.usable = true) :
    decodeExn c (mapOf w).error = .reservedInstruction := by
  obtain ⟨-, hm⟩ | ⟨-, hm⟩ | ⟨hop, -, hm⟩ | ⟨hop, -, hm⟩ | ⟨-, -, -, hm⟩ := mapOf_cases w
  · rw [hm]; rfl
  · rw [hm]; rfl
  · rw [hm]; exact if_pos (h hop)
  · rw [hm]; exact if_pos (h hop)
  · rw [hm]; rfl

theorem step_of_decodeWord_error {s : State} {pa : PAddr} {e : DecodeError} (hi : s.cp0.interruptReady = false)
    (hf : FetchesFrom s pa) (hd : decodeWord (BitVec.ofNat 32 (bigEndian s.mem pa.toNat 4)) = .error e) :
    step s = thenTick (raise (decodeExn s.cp0 e) s) := by
  have hfetch : fetchDecode s = .raised (decodeExn s.cp0 e) s := by rw [fetchDecode_of_fetchesFrom s pa hf, hd]
  rw [step, if_neg (by rw [hi]; decide), hfetch]

end Sys2Proof.Machine

open Sys2Proof Sys2Proof.Machine Sys2Proof.Safety

/-- Settles O4: the decoder refuses the reserved words (`decodeWord_error_iff`), the step of one takes the exception of
the decoder's error, and a 64-bit operation fails the check of the mode. -/
theorem reservedInstructionRaised : Obligations.ReservedInstructionRaised := by
  refine ⟨decodeWord_error_iff, ?step, ?mode⟩
  case step =>
    intro s pa w hi hf hw hres hcop
    obtain ⟨e, hd⟩ := (decodeWord_error_iff w).mpr hres
    have hstep := step_of_decodeWord_error hi hf (by rw [hw, BitVec.ofNat_toNat, BitVec.setWidth_eq, hd])
    rw [(reservedWord_of_decodeWord_error hd).2, decodeExn_mapOf_error hcop] at hstep
    exact ⟨_, _, hstep, entered_takeException .., ticked_tick _⟩
  case mode =>
    intro i s h64 hmode hcop
    obtain ⟨r, hexec | ⟨hneeds, hexec⟩⟩ := exec_of_is64 h64 s
    · rw [hexec, require64_of_not_kernelMode hmode]
      exact enters_raise ..
    · rw [hexec, requireCp0_of_usable (hcop hneeds), require64_of_not_kernelMode hmode]
      exact enters_raise ..

/-- Settles O51: each of the ten instructions begins with the check that CP0 is usable. -/
theorem cp0UnusableRaises : Obligations.Cp0UnusableRaises := by
  refine ⟨fun s => rfl, fun i s hneeds husable => ?_⟩
  obtain ⟨r, hexec⟩ := exec_of_needsCp0 hneeds s
  rw [hexec, requireCp0_of_not_usable husable]
  exact enters_raise ..
end

section
/-! The add, subtract, compare, logical and shift instructions (40 R201 to R241): the values they write as integers and
their quotients, and the two ways in which a signed add or subtract ends. -/

namespace Sys2Proof.Machine

open Sys2Proof.Safety

-- Sums, differences and immediates as integers (40 R201, R204 to R214; 30 R153).

theorem toInt_regLow (s : State) (i : RegNum) : (s.regLow i).toInt = low32s (s.reg i) := toInt_lowWord _

theorem toNat_regLow (s : State) (i : RegNum) : (s.regLow i).toNat = low32u (s.reg i) := toNat_lowWord _

/-- The wrapping difference of words is that of the integers they stand for (40 R201). -/
theorem sext_sub_lowWord (v w : DWord) : sext (lowWord v - lowWord w) = word32 (low32s v - low32s w) := by
  rw [← toInt_lowWord, ← toInt_lowWord]
  exact sext_eq_word32 _ _ (eq_ofInt_of_toInt _ _ BitVec.toInt_sub)

theorem add_eq_word64 (v w : DWord) : v + w = word64 (v.toInt + w.toInt) :=
  eq_ofInt_of_toInt _ _ (BitVec.toInt_add v w)

theorem sub_eq_word64 (v w : DWord) : v - w = word64 (v.toInt - w.toInt) :=
  eq_ofInt_of_toInt _ _ BitVec.toInt_sub

/-- The zero-extended immediate as a number. -/
theorem zimm_eq_ofNat (imm : BitVec 16) : zimm imm = BitVec.ofNat 64 imm.toNat :=
  (BitVec.ofNat_toNat 64 imm).symm

/-- The immediate of LUI as a number (40 R226). -/
theorem uimm_eq_word32 (imm : BitVec 16) : uimm imm = word32 (imm.toNat * 2 ^ 16) := by
  refine sext_eq_word32 _ _ (BitVec.eq_of_toNat_eq ?_)
  have himm := imm.isLt
  have happend : (imm ++ 0#16 : Word).toNat = imm.toNat * 2 ^ 16 := by
    rw [BitVec.toNat_append, BitVec.toNat_ofNat, Nat.zero_mod, Nat.or_zero, Nat.shiftLeft_eq]
  rw [happend, BitVec.toNat_ofInt]
  omega

-- The comparisons (40 R215 to R218).

theorem truthValue_slt (v w : DWord) : truthValue (v.slt w) = oneIf (v.toInt < w.toInt) :=
  truthValue_eq_oneIf _ _ BitVec.slt_eq_decide

theorem truthValue_ult (v w : DWord) : truthValue (v.ult w) = oneIf (v.toNat < w.toNat) :=
  truthValue_eq_oneIf _ _ BitVec.ult_eq_decide

/-- The unsigned comparison with a sign-extended immediate (40 R218). -/
theorem truthValue_ult_simm (v : DWord) (imm : BitVec 16) :
    truthValue (v.ult (simm imm)) = oneIf ((v.toNat : Int) < imm.toInt % 2 ^ 64) := by
  refine truthValue_eq_oneIf _ _ ?_
  rw [BitVec.ult_eq_decide, ← toNat_simm]
  exact decide_eq_decide.mpr Nat.cast_lt.symm

-- How an instruction of this family ends (40 R202).

section
variable {s : State} {rd : RegNum} {n : Nat} {v w : DWord} {r r' : Int}

/-- A result that fits in 32 signed bits is its own sign extension. -/
theorem sext_ofInt_of_fits (h : fits 32 r) : sext (BitVec.ofInt 32 r) = word64 r := by
  obtain ⟨hlow, hhigh⟩ := h
  rw [sext_eq_word64 _ (by decide), BitVec.toInt_ofInt_eq_self (by decide) hlow (by omega)]

/-- The check for overflow, then the write (40 R202). -/
theorem writesReg_or_overflow (hv : fits n r → v = w) :
    (fits n r → WritesReg (if overflows n r then raise .overflow s else retireReg s rd v) s rd w) ∧
    (¬fits n r → Enters (if overflows n r then raise .overflow s else retireReg s rd v) .overflow s) := by
  constructor
  case left =>
    intro hfits
    rw [if_neg (mt (overflows_iff_not_fits n r).mp (not_not.mpr hfits))]
    exact writesReg_retire s rd v w (hv hfits)
  case right =>
    intro hfits
    rw [if_pos ((overflows_iff_not_fits n r).mpr hfits)]
    exact enters_raise .overflow s

theorem retireExact32_writesReg_or_overflow (h : r = r') :
    (fits 32 r' → WritesReg (retireExact32 s rd r) s rd (word64 r')) ∧
    (¬fits 32 r' → Enters (retireExact32 s rd r) .overflow s) := by
  subst h
  exact writesReg_or_overflow sext_ofInt_of_fits

theorem retireExact64_writesReg_or_overflow (hk : s.cp0.kernelMode = true) (h : r = r') :
    (fits 64 r' → WritesReg (require64 s (retireExact64 s rd r)) s rd (word64 r')) ∧
    (¬fits 64 r' → Enters (require64 s (retireExact64 s rd r)) .overflow s) := by
  subst h
  rw [require64_of_kernelMode s hk]
  exact writesReg_or_overflow fun _ => rfl

/-- A 64-bit operation in kernel mode that writes a register. -/
theorem writesReg_require64 (hk : s.cp0.kernelMode = true) (h : v = w) :
    WritesReg (require64 s (retireReg s rd v)) s rd w := by
  rw [require64_of_kernelMode s hk]
  exact writesReg_retire s rd v w h

end

end Sys2Proof.Machine

open Sys2Proof Sys2Proof.Machine Sys2Proof.Safety

/-- Settles O13: every signed add and subtract ends with the check for overflow of its exact result. -/
theorem signedAddOverflow : Obligations.SignedAddOverflow := by
  intro s rs rt rd imm
  refine ⟨?add, ?sub, ?addi, fun hk => ⟨?dadd, ?dsub, ?daddi⟩⟩
  case add | sub => exact retireExact32_writesReg_or_overflow (by rw [toInt_regLow, toInt_regLow])
  case addi => exact retireExact32_writesReg_or_overflow (by rw [toInt_regLow])
  case dadd | dsub | daddi => exact retireExact64_writesReg_or_overflow hk rfl

/-- Settles O14: bit-vector addition and subtraction are those of the integers, modulo the range. -/
theorem wrappingAdd : Obligations.WrappingAdd := by
  intro s rs rt rd imm
  refine ⟨?addu, ?subu, ?addiu, fun hk => ⟨?daddu, ?dsubu, ?daddiu⟩⟩
  case addu => exact writesReg_retire _ _ _ _ (sext_add_lowWord ..)
  case subu => exact writesReg_retire _ _ _ _ (sext_sub_lowWord ..)
  case addiu => exact writesReg_addiu s rs rt imm
  case daddu => exact writesReg_require64 hk (add_eq_word64 ..)
  case dsubu => exact writesReg_require64 hk (sub_eq_word64 ..)
  case daddiu => exact writesReg_require64 hk (by rw [add_eq_word64, toInt_simm])

/-- Settles O15: the comparisons of bit vectors are those of their signed and unsigned values. -/
theorem setOnLess : Obligations.SetOnLess := by
  intro s rs rt rd imm
  refine ⟨?slt, ?sltu, ?slti, ?sltiu⟩
  case slt => exact writesReg_retire _ _ _ _ (truthValue_slt ..)
  case sltu => exact writesReg_retire _ _ _ _ (truthValue_ult ..)
  case slti => exact writesReg_retire _ _ _ _ (by rw [truthValue_slt, toInt_simm])
  case sltiu => exact writesReg_retire _ _ _ _ (truthValue_ult_simm ..)

/-- Settles O16: the meanings are the bitwise operations themselves; what is left is the immediates as numbers. -/
theorem logicalOperations : Obligations.LogicalOperations := by
  intro s rs rt rd imm
  refine ⟨?and, ?or, ?xor, ?nor, ?andi, ?ori, ?xori, ?lui⟩
  case and | or | xor | nor => exact writesReg_retire _ _ _ _ rfl
  case andi | ori | xori => exact writesReg_retire _ _ _ _ (by rw [zimm_eq_ofNat])
  case lui => exact writesReg_retire _ _ _ _ (uimm_eq_word32 imm)

/-- Settles O17: a shift of the low word multiplies or divides it by the power of two of the amount. -/
theorem wordShifts : Obligations.WordShifts := by
  intro s rs rt rd sa
  refine ⟨?sll, ?srl, ?sra, ?sllv, ?srlv, ?srav⟩
  case sll => exact writesReg_retire _ _ _ _ (by rw [sext_shiftLeft, toNat_regLow])
  case srl => exact writesReg_retire _ _ _ _ (by rw [sext_ushiftRight, toNat_regLow])
  case sra => exact writesReg_retire _ _ _ _ (by rw [sext_sshiftRight, toInt_regLow])
  case sllv => exact writesReg_retire _ _ _ _ (by rw [sext_shiftLeft, toNat_regLow, shiftAmount32_eq])
  case srlv => exact writesReg_retire _ _ _ _ (by rw [sext_ushiftRight, toNat_regLow, shiftAmount32_eq])
  case srav => exact writesReg_retire _ _ _ _ (by rw [sext_sshiftRight, toInt_regLow, shiftAmount32_eq])

/-- Settles O18: as the word shifts, on all 64 bits, behind the check of the mode. -/
theorem doublewordShifts : Obligations.DoublewordShifts := by
  intro s rs rt rd sa hk
  refine ⟨⟨?dsll, ?dsrl, ?dsra⟩, ⟨?dsll32, ?dsrl32, ?dsra32⟩, ?dsllv, ?dsrlv, ?dsrav⟩
  case dsll | dsll32 => exact writesReg_require64 hk (shiftLeft_eq_word64 ..)
  case dsrl | dsrl32 => exact writesReg_require64 hk (ushiftRight_eq_word64 ..)
  case dsra | dsra32 => exact writesReg_require64 hk (sshiftRight_eq_word64 ..)
  case dsllv => exact writesReg_require64 hk (by rw [shiftLeft_eq_word64, shiftAmount64_eq])
  case dsrlv => exact writesReg_require64 hk (by rw [ushiftRight_eq_word64, shiftAmount64_eq])
  case dsrav => exact writesReg_require64 hk (by rw [sshiftRight_eq_word64, shiftAmount64_eq])
end

section
/-! The moves from and to HI and LO, the multiplies and the divides (41 R260 to R273): the halves of an exact product,
the quotient and the remainder, and the cases of the divisor. -/

namespace Sys2Proof.Machine

open Sys2Proof.Safety

section
variable {s : State} {rs rt : RegNum}

-- How an instruction of this family ends (41 R260, R261).

theorem writesHiLo_retireProduct32 {p p' : Int} (h : p = p') :
    WritesHiLo (retireProduct32 s p) s (word32 (p' / 2 ^ 32)) (word32 p') := by
  subst h
  exact writesHiLo_retire _ _ _ _ _ (sext_eq_word32 _ _ (getField_ofInt_high32 p))
    (sext_eq_word32 _ _ (getField_ofInt_low32 p))

theorem writesHiLo_retireProduct64 (p : Int) :
    WritesHiLo (retireProduct64 s p) s (word64 (p / 2 ^ 64)) (word64 p) :=
  writesHiLo_retire _ _ _ _ _ (getField_ofInt_high64 p) (getField_ofInt_low64 p)

theorem writesHiLo_retireQuotient32 {q r : Int} {hi lo : DWord} (hr : word32 r = hi) (hq : word32 q = lo) :
    WritesHiLo (retireQuotient32 s q r) s hi lo :=
  writesHiLo_retire _ _ _ _ _ ((sext_eq_word32 r _ rfl).trans hr) ((sext_eq_word32 q _ rfl).trans hq)

theorem writesHiLo_retireQuotient64 {q r : Int} {hi lo : DWord} (hr : word64 r = hi) (hq : word64 q = lo) :
    WritesHiLo (retireQuotient64 s q r) s hi lo :=
  writesHiLo_retire _ _ _ _ _ hr hq

theorem writesHiLo_retireDivZero (op : DivOp) (v : DWord) :
    WritesHiLo (retireDivZero s op v) s (Config.div0 op v).1 (Config.div0 op v).2 :=
  writesHiLo_retire _ _ _ _ _ rfl rfl

-- The divides by a divisor that is not 0 (41 R268, R269, R272, R273).

/-- The line of the overflow case writes what the quotient 2^31 wraps to. -/
theorem exec_div_of_ne_zero (h : low32s (s.reg rt) ≠ 0) : exec (.div rs rt) s =
    retireQuotient32 s ((low32s (s.reg rs)).tdiv (low32s (s.reg rt)))
      ((low32s (s.reg rs)).tmod (low32s (s.reg rt))) := by
  simp only [← toInt_regLow] at h ⊢
  refine (if_neg h).trans ?_
  split
  case isTrue hoverflow =>
    rw [hoverflow.1, hoverflow.2]
    rfl
  case isFalse => rfl

theorem exec_divu_of_ne_zero (h : low32u (s.reg rt) ≠ 0) : exec (.divu rs rt) s =
    retireQuotient32 s (low32u (s.reg rs) / low32u (s.reg rt) : Nat)
      (low32u (s.reg rs) % low32u (s.reg rt) : Nat) := by
  simp only [← toNat_regLow] at h ⊢
  exact if_neg h

/-- The line of the overflow case writes what the quotient 2^63 wraps to. -/
theorem exec_ddiv_of_ne_zero (hk : s.cp0.kernelMode = true) (h : (s.reg rt).toInt ≠ 0) : exec (.ddiv rs rt) s =
    retireQuotient64 s ((s.reg rs).toInt.tdiv (s.reg rt).toInt) ((s.reg rs).toInt.tmod (s.reg rt).toInt) := by
  refine (require64_of_kernelMode s hk _).trans ((if_neg h).trans ?_)
  split
  case isTrue hoverflow =>
    rw [hoverflow.1, hoverflow.2]
    rfl
  case isFalse => rfl

theorem exec_ddivu_of_ne_zero (hk : s.cp0.kernelMode = true) (h : (s.reg rt).toNat ≠ 0) : exec (.ddivu rs rt) s =
    retireQuotient64 s ((s.reg rs).toNat / (s.reg rt).toNat : Nat) ((s.reg rs).toNat % (s.reg rt).toNat : Nat) :=
  (require64_of_kernelMode s hk _).trans (if_neg h)

-- The divides by 0 (41 R261).

theorem exec_div_of_eq_zero (h : low32s (s.reg rt) = 0) : exec (.div rs rt) s = retireDivZero s .div (s.reg rs) :=
  if_pos ((toInt_regLow s rt).trans h)

theorem exec_divu_of_eq_zero (h : low32u (s.reg rt) = 0) : exec (.divu rs rt) s = retireDivZero s .divu (s.reg rs) :=
  if_pos ((toNat_regLow s rt).trans h)

theorem exec_ddiv_of_eq_zero (hk : s.cp0.kernelMode = true) (h : (s.reg rt).toInt = 0) :
    exec (.ddiv rs rt) s = retireDivZero s .ddiv (s.reg rs) :=
  (require64_of_kernelMode s hk _).trans (if_pos h)

theorem exec_ddivu_of_eq_zero (hk : s.cp0.kernelMode = true) (h : (s.reg rt).toNat = 0) :
    exec (.ddivu rs rt) s = retireDivZero s .ddivu (s.reg rs) :=
  (require64_of_kernelMode s hk _).trans (if_pos h)

end

end Sys2Proof.Machine

open Sys2Proof Sys2Proof.Machine Sys2Proof.Safety

/-- Settles O20: the fields of the product's pattern are the halves of the exact product. -/
theorem multiplies : Obligations.Multiplies := by
  intro s rs rt
  refine ⟨?mult, ?multu, fun hk => ⟨?dmult, ?dmultu⟩⟩
  case mult => exact writesHiLo_retireProduct32 (by rw [toInt_regLow, toInt_regLow])
  case multu => exact writesHiLo_retireProduct32 (by rw [toNat_regLow, toNat_regLow])
  case dmult =>
    rw [show exec (.dmult rs rt) s = _ from require64_of_kernelMode s hk _]
    exact writesHiLo_retireProduct64 _
  case dmultu =>
    rw [show exec (.dmultu rs rt) s = _ from require64_of_kernelMode s hk _]
    exact writesHiLo_retireProduct64 _

/-- Settles O21: by a divisor that is not 0 each divide writes the truncated quotient and its remainder, also in the
overflow case, where the quotient wraps to the pattern of the dividend. -/
theorem divisionResults : Obligations.DivisionResults := by
  intro s rs rt
  refine ⟨⟨?div, ?divOverflow, ?divZero⟩, ⟨?divu, ?divuZero⟩,
    fun hk => ⟨⟨?ddiv, ?ddivOverflow, ?ddivZero⟩, ?ddivu, ?ddivuZero⟩⟩
  case div =>
    intro hd
    rw [exec_div_of_ne_zero hd]
    exact ⟨_, _, isDivision_tdiv _ _ hd, writesHiLo_retireQuotient32 rfl rfl⟩
  case divOverflow =>
    rintro ⟨hn, hd⟩
    rw [exec_div_of_ne_zero (by rw [hd]; decide), hn, hd]
    exact writesHiLo_retireQuotient32 (by decide) (by decide)
  case divZero => exact fun hd => exec_div_of_eq_zero hd ▸ writesHiLo_retireDivZero _ _
  case divu => exact fun hd => exec_divu_of_ne_zero hd ▸ writesHiLo_retireQuotient32 rfl rfl
  case divuZero => exact fun hd => exec_divu_of_eq_zero hd ▸ writesHiLo_retireDivZero _ _
  case ddiv =>
    intro hd
    rw [exec_ddiv_of_ne_zero hk hd]
    exact ⟨_, _, isDivision_tdiv _ _ hd, writesHiLo_retireQuotient64 rfl rfl⟩
  case ddivOverflow =>
    rintro ⟨hn, hd⟩
    rw [exec_ddiv_of_ne_zero hk (by rw [hd]; decide), hn, hd]
    exact writesHiLo_retireQuotient64 (by decide) (by decide)
  case ddivZero => exact fun hd => exec_ddiv_of_eq_zero hk hd ▸ writesHiLo_retireDivZero _ _
  case ddivu => exact fun hd => exec_ddivu_of_ne_zero hk hd ▸ writesHiLo_retireQuotient64 rfl rfl
  case ddivuZero => exact fun hd => exec_ddivu_of_eq_zero hk hd ▸ writesHiLo_retireDivZero _ _

/-- Settles O19: each move ends as every instruction that writes a register, or HI and LO, does. -/
theorem hiLoMoves : Obligations.HiLoMoves := by
  intro s rs rd
  refine ⟨?mfhi, ?mflo, ?mthi, ?mtlo⟩
  case mfhi | mflo => exact writesReg_retire _ _ _ _ rfl
  case mthi | mtlo => exact writesHiLo_retire _ _ _ _ _ rfl rfl
end

section
/-! The jumps and branches (42 R280 to R304): each condition as the statements write it, and each instruction as the
branch it ends with. -/

namespace Sys2Proof.Machine

-- The conditions (42 R285 to R301): the comparisons with 0 on the signed value of the register.

theorem bne_eq_decide_ne (v w : DWord) : (v != w) = decide (v ≠ w) := (decide_not).symm

theorem sle_zero_eq_decide (v : DWord) : v.sle 0#64 = decide (v.toInt ≤ 0) := rfl

theorem zero_slt_eq_decide (v : DWord) : (0#64).slt v = decide (0 < v.toInt) := rfl

theorem slt_zero_eq_decide (v : DWord) : v.slt 0#64 = decide (v.toInt < 0) := rfl

theorem zero_sle_eq_decide (v : DWord) : (0#64).sle v = decide (0 ≤ v.toInt) := rfl

end Sys2Proof.Machine

open Sys2Proof Sys2Proof.Machine Sys2Proof.Safety

/-- Settles O22: a jump is a branch that is always taken, to a target read before the link is written. -/
theorem jumpInstructions : Obligations.JumpInstructions := by
  intro s rs rd index
  refine ⟨⟨?j, ?jal⟩, ?jr, ?jalr⟩
  case j => exact jumps_branch _ _ _ _ _ rfl (jumpTargetOf_eq s index)
  case jal => exact jumpsLinking_jal s index
  case jr => exact jumps_branch _ _ _ _ _ rfl rfl
  case jalr => exact jumpsLinking_branch _ _ _ _ _ _ rfl rfl

/-- Settles O23: each branch ends with its test of the registers as they were before the link. -/
theorem conditionalBranches : Obligations.ConditionalBranches := by
  intro s rs rt offset target
  have htarget : branchTargetOf s offset = target := branchTargetOf_eq s offset
  refine ⟨?beq, ?bne, ?blez, ?bgtz, ?bltz, ?bgez, ?bltzal, ?bgezal⟩
  case beq => exact jumps_branch _ _ _ _ _ rfl htarget
  case bne => exact jumps_branch _ _ _ _ _ (bne_eq_decide_ne _ _) htarget
  case blez => exact jumps_branch _ _ _ _ _ (sle_zero_eq_decide _) htarget
  case bgtz => exact jumps_branch _ _ _ _ _ (zero_slt_eq_decide _) htarget
  case bltz => exact jumps_branch _ _ _ _ _ (slt_zero_eq_decide _) htarget
  case bgez => exact jumps_branch _ _ _ _ _ (zero_sle_eq_decide _) htarget
  case bltzal => exact jumpsLinking_branch _ _ _ _ _ _ (slt_zero_eq_decide _) htarget
  case bgezal => exact jumpsLinking_branch _ _ _ _ _ _ (zero_sle_eq_decide _) htarget

/-- Settles O24: each likely branch has the test and target of its ordinary form, and ends with `branchLikely`, which
annuls the delay slot where the branch is not taken. -/
theorem likelyBranches : Obligations.LikelyBranches := by
  intro s rs rt offset target
  have htarget : branchTargetOf s offset = target := branchTargetOf_eq s offset
  refine ⟨?beql, ?bnel, ?blezl, ?bgtzl, ?bltzl, ?bgezl, ?bltzall, ?bgezall⟩
  case beql => exact jumps_branchLikely _ _ _ _ _ rfl htarget
  case bnel => exact jumps_branchLikely _ _ _ _ _ (bne_eq_decide_ne _ _) htarget
  case blezl => exact jumps_branchLikely _ _ _ _ _ (sle_zero_eq_decide _) htarget
  case bgtzl => exact jumps_branchLikely _ _ _ _ _ (zero_slt_eq_decide _) htarget
  case bltzl => exact jumps_branchLikely _ _ _ _ _ (slt_zero_eq_decide _) htarget
  case bgezl => exact jumps_branchLikely _ _ _ _ _ (zero_sle_eq_decide _) htarget
  case bltzall => exact jumpsLinking_branchLikely _ _ _ _ _ _ (slt_zero_eq_decide _) htarget
  case bgezall => exact jumpsLinking_branchLikely _ _ _ _ _ _ (zero_sle_eq_decide _) htarget
end

section
/-! An exception and the ERET that returns from it (42 R303; 60 R460, R467, R477): entry sets EXL, so that ERET may run,
and keeps in EPC where to go back to. -/

namespace Sys2Proof.Machine

open Sys2Proof.Safety

-- Setting EXL and clearing it again (60 R460, R467).

/-- Of two writes of one field the second stays. -/
theorem setField_setField_same {n len : Nat} (w : BitVec n) (lo : Nat) (v v' : BitVec len) :
    setField (setField w lo v) lo v' = setField w lo v' := by
  apply BitVec.eq_of_getLsbD_eq
  intro i hi
  simp only [getLsbD_setField, hi, decide_true, Bool.true_and]
  split <;> rfl

/-- To write the bit that a word has changes nothing. -/
theorem setField_bitAt {n : Nat} (w : BitVec n) (i : Nat) : setField w i (bit (bitAt w i)) = w := by
  apply BitVec.eq_of_getLsbD_eq
  intro j hj
  rw [getLsbD_setField, decide_eq_true hj, Bool.true_and]
  split
  case isTrue hin =>
    obtain rfl : j = i := by omega
    rw [Nat.sub_self, bitAt, bit]
    cases w.getLsbD j <;> rfl
  case isFalse => rfl

theorem kernelMode_of_exl {c : Cp0} (h : c.exl = true) : c.kernelMode = true := by
  rw [Cp0.kernelMode, h, Bool.true_or, Bool.true_or]

theorem requireCp0_of_exl {s : State} (h : s.cp0.exl = true) (r : Result) : requireCp0 s r = r :=
  requireCp0_of_or s (.inl (kernelMode_of_exl h)) r

/-- ERET after an entry with EXL = 0 leaves Status as it was before the entry. -/
theorem setExl_false_enter_status {c : Cp0} (h : c.exl = false) (e : Exn) (pc : DWord) (slot : Bool) :
    ((c.enter e pc slot).setExl false).status = c.status := by
  rw [Cp0.setExl, enter_status, setField_setField_same, ← h]
  exact setField_bitAt c.status 1

/-- In the handler ERET is allowed in every mode that was interrupted (60 R461, R471). -/
theorem exec_eret_takeException (e : Exn) (s : State) :
    exec .eret (takeException e s) = .next (returnFromException (takeException e s)) :=
  requireCp0_of_exl (entered_takeException e s).exl _

end Sys2Proof.Machine

open Sys2Proof Sys2Proof.Machine Sys2Proof.Safety

/-- Settles O55: entry with EXL = 0 keeps in EPC and BD where the instruction stood, and ERET goes to EPC and undoes
what entry did to Status. -/
theorem eretReplays : Obligations.EretReplays := by
  intro e s hexl
  have ht := entered_takeException e s
  refine ⟨returnFromException (takeException e s), exec_eret_takeException e s, ?pc, rfl, rfl, rfl,
    setExl_false_enter_status hexl .., ?bd, ht.regs, ht.hiLo, ht.mem, ht.tlbLl.1⟩
  case pc => exact ht.epc.trans (by rw [hexl]; rfl)
  case bd => exact ht.bd.trans (by rw [hexl]; rfl)
end

section
/-! SYNC, CACHE and the linked and conditional forms (43 R336 to R343): each retires in a state whose difference from
the one before is written out. -/

namespace Sys2Proof.Machine

open Sys2Proof.Safety

/-- What a linked load leaves: the register, LLbit, LLAddr and the advance of pc (43 R336). -/
theorem linked_retire (s : State) (rt : RegNum) (v : DWord) (c : Cp0) :
    ∃ t, retire (((s.setReg rt v).setLlbit true).setCp0 c) = .next t ∧ RegWritten s t rt v ∧ SameHiLo s t ∧
      t.cp0 = c ∧ t.llbit = true ∧ t.tlb = s.tlb ∧ SameMemory s t ∧ SameBus s t ∧ Advances s t := by
  refine ⟨_, rfl, fun r => ?_, ?_⟩
  · rw [sequence_reg]
    exact regWritten_setReg s rt v r
  · simp [SameHiLo, SameMemory, SameBus, Advances, sequence]

/-- What a conditional store leaves beside the memory `m` (43 R338). -/
theorem conditional_retire (s : State) (m : Memory) (rt : RegNum) (v : DWord) :
    ∃ t, retire ((({ s with mem := m }).setReg rt v).setLlbit false) = .next t ∧ RegWritten s t rt v ∧ t.mem = m ∧
      t.llbit = false ∧ t.tlb = s.tlb ∧ SameHiLo s t ∧ t.cp0 = s.cp0 ∧ SameBus s t ∧ Advances s t := by
  refine ⟨_, rfl, fun r => ?_, ?_⟩
  · rw [sequence_reg]
    exact regWritten_setReg { s with mem := m } rt v r
  · simp [SameHiLo, SameBus, Advances, sequence]

section
variable {s : State} {rt : RegNum} {ea : DWord} {w : Width} {pa : PAddr}

theorem loadLinked_ok {v : DWord} (f : DWord → DWord) (ht : translateAligned ea w .load s = .ok pa)
    (h : loadAt ea pa w s = .ok v s) : loadLinked rt f ea w s =
      retire (((s.setReg rt (f v)).setLlbit true).setCp0 { s.cp0 with llAddr := getField pa 4 32 }) := by
  rw [loadLinked, ht]
  dsimp only
  rw [h, retireLinked]

theorem storeConditional_of_llbit {u : State} (ht : translateAligned ea w .store s = .ok pa) (hll : s.llbit = true)
    (h : storeAt ea pa w (s.reg rt) s = .ok u) :
    storeConditional rt ea w s = retire ((u.setReg rt 1#64).setLlbit false) := by
  rw [storeConditional, ht]
  dsimp only
  rw [hll, if_pos rfl, h, retireConditional]

theorem storeConditional_of_not_llbit (ht : translateAligned ea w .store s = .ok pa) (hll : s.llbit = false) :
    storeConditional rt ea w s = retire ((s.setReg rt 0#64).setLlbit false) := by
  rw [storeConditional, ht]
  dsimp only
  rw [hll, if_neg Bool.false_ne_true]

end

end Sys2Proof.Machine

open Sys2Proof Sys2Proof.Machine Sys2Proof.Safety

/-- Settles O31: both end as an instruction without effect, CACHE after the check that CP0 is usable. -/
theorem syncAndCache : Obligations.SyncAndCache := by
  intro s base op stype offset
  refine ⟨onlyAdvances_retire s, fun husable => ?_⟩
  rw [show exec (.cache base op offset) s = _ from requireCp0_of_or s husable _]
  exact onlyAdvances_retire s

/-- Settles O29: the checks and the value are those of an aligned load, and `linked_retire` says what else is left. -/
theorem loadLinked_holds : Obligations.LoadLinked := by
  intro s base rt offset pa p hp ha ht hm
  obtain ⟨f, hexec, hf⟩ := exec_linkedLoad hp ha
  have hvalue := truncateTo_readBytes s.mem pa p.2.1 (translateAligned_aligned ht)
  rw [hexec, loadLinked_ok f ht (loadAt_memory _ _ _ _ hm), hf _ (toNat_truncateTo_lt _ _), hvalue, getField_eq_ofNat]
  exact linked_retire ..

/-- Settles O30: with LLbit 1 the bytes are those of an aligned store, with LLbit 0 memory is as it was, and
`conditional_retire` says what else is left. -/
theorem storeConditional_holds : Obligations.StoreConditional := by
  intro s base rt offset pa hw p hp ha ht
  rw [exec_conditionalStore hp ha]
  refine ⟨fun hll hm => ?stored, fun hll => ?refused⟩
  case stored =>
    rw [storeConditional_of_llbit ht hll (storeAt_memory _ _ _ _ _ hm)]
    obtain ⟨t, hnext, hreg, hmem, hrest⟩ := conditional_retire s
      (writeBytes s.mem pa (widthBytes p.2) (truncateTo p.2 (s.reg rt))) rt 1#64
    have hfits := aligned_le pa p.2 (translateAligned_aligned ht)
    exact ⟨t, hnext, hreg, bytesStored_writeBytes s t pa _ _ (widthBytes_le _) hfits hw hmem _
      (truncateTo_byte p.2 (s.reg rt)), hrest⟩
  case refused =>
    rw [storeConditional_of_not_llbit ht hll]
    obtain ⟨t, hnext, hreg, hmem, hrest⟩ := conditional_retire s s.mem rt 0#64
    exact ⟨t, hnext, hreg, fun a => by rw [hmem], hrest⟩
end

section
/-! The unaligned loads that complete in memory (43 R311, R319 to R322): the parts of the unit on each side of the
address, and the merge of one of them with the register. -/

namespace Sys2Proof.Machine

open Sys2Proof.Safety

-- The parts of a big-endian value.

theorem bigEndian_mod (m : Memory) (a i j : Nat) : bigEndian m a (i + j) % 256 ^ j = bigEndian m (a + i) j := by
  rw [bigEndian_add, Nat.mul_add_mod_of_lt (bigEndian_lt m (a + i) j)]

theorem bigEndian_div (m : Memory) (a i j : Nat) : bigEndian m a (i + j) / 256 ^ j = bigEndian m a i := by
  rw [bigEndian_add, Nat.mul_comm, Nat.mul_add_div (Nat.pow_pos (by decide)), Nat.div_eq_of_lt (bigEndian_lt _ _ _),
    Nat.add_zero]

/-- The value of the unit in memory: its bytes from the address on are the lower part, those up to the address the
upper part. -/
theorem readUnit_memory {ea : DWord} {w : Width} {s : State} {pa : PAddr} (ht : translate ea .load s = .ok pa)
    (hm : regionKindAt s.bus (pa.toNat - unitOffset ea w) = .memory) :
    ∃ v : DWord, readUnit ea w s = .ok v s ∧ v.toNat < 2 ^ (8 * widthBytes w) ∧
      v.toNat % 256 ^ (widthBytes w - unitOffset ea w) = bigEndian s.mem pa.toNat (widthBytes w - unitOffset ea w) ∧
      v.toNat / 256 ^ (widthBytes w - 1 - unitOffset ea w) =
        bigEndian s.mem (pa.toNat - unitOffset ea w) (unitOffset ea w + 1) := by
  have hlt : unitOffset ea w < widthBytes w := Nat.mod_lt _ (widthBytes_pos w)
  have haddr : (unitAddr pa w).toNat + unitOffset ea w = pa.toNat := unitAddr_add_offset w ht
  have hunit : pa.toNat - unitOffset ea w = (unitAddr pa w).toNat := by omega
  rw [hunit] at hm ⊢
  have hvalue := truncateTo_readBytes s.mem (unitAddr pa w) w (by rw [toNat_unitAddr, Nat.mul_mod_left])
  refine ⟨_, (readUnit_ok _ _ _ _ ht).trans (loadAt_memory _ _ _ _ hm), toNat_truncateTo_lt _ _, ?_, ?_⟩
  · have h := bigEndian_mod s.mem (unitAddr pa w).toNat (unitOffset ea w) (widthBytes w - unitOffset ea w)
    rwa [haddr, Nat.add_sub_cancel' hlt.le, ← hvalue] at h
  · have h := bigEndian_div s.mem (unitAddr pa w).toNat (unitOffset ea w + 1) (widthBytes w - 1 - unitOffset ea w)
    rwa [show unitOffset ea w + 1 + (widthBytes w - 1 - unitOffset ea w) = widthBytes w by omega, ← hvalue] at h

-- The register that a merge makes.

theorem sext_eq_word32_of_toNat {v : Word} {n : Nat} (h : v.toNat = n) : sext v = word32 n :=
  sext_eq_word32 _ _ (by rw [← h, BitVec.ofInt_natCast, BitVec.ofNat_toNat, BitVec.setWidth_eq])

theorem eq_word64_of_toNat {v : DWord} {n : Nat} (h : v.toNat = n) : v = word64 n :=
  h ▸ eq_word64_toNat v

/-- The word read, as the low word of the value read. -/
theorem toNat_getField_word {v : DWord} (h : v.toNat < 2 ^ 32) : (getField v 0 32).toNat = v.toNat := by
  rw [getField, BitVec.extractLsb'_toNat, Nat.shiftRight_zero, Nat.mod_eq_of_lt h]

/-- An unaligned load whose unit is read writes what it makes of the unit. -/
theorem writesReg_retireLoad {s : State} {rt : RegNum} {f : DWord → DWord} {r : ReadResult} {v x : DWord}
    (hr : r = .ok v s) (hf : f v = x) : WritesReg (retireLoad rt f r) s rt x := by
  rw [hr]
  exact writesReg_retire s rt _ _ hf

end Sys2Proof.Machine

open Sys2Proof Sys2Proof.Machine Sys2Proof.Safety

/-- Settles O26: the left forms merge the lower part of the unit, the right forms its upper part (`readUnit_memory`). -/
theorem unalignedLoads_hold : Obligations.UnalignedLoads := by
  intro s base rt offset pa ht
  constructor
  · intro b hm
    have hb : b < 4 := Nat.mod_lt _ (by decide)
    obtain ⟨v, hread, hlt, hleft, hright⟩ := readUnit_memory (w := .word) ht hm
    have hword : (getField v 0 32).toNat = v.toNat := toNat_getField_word hlt
    have hlow : (s.regLow rt).toNat = low32u (s.reg rt) := toNat_lowWord _
    refine ⟨writesReg_retireLoad hread (sext_eq_word32_of_toNat ?lwl),
      writesReg_retireLoad hread (sext_eq_word32_of_toNat ?lwr)⟩
    case lwl => exact (toNat_mergeLeft32 b hb _ _).trans (by rw [hword, hlow]; exact congrArg (· * _ + _) hleft)
    case lwr => exact (toNat_mergeRight32 b hb _ _).trans (by rw [hword, hlow]; exact congrArg (_ + ·) hright)
  · intro b hk hm
    have hb : b < 8 := Nat.mod_lt _ (by decide)
    obtain ⟨v, hread, -, hleft, hright⟩ := readUnit_memory (w := .dword) ht hm
    have hrun (r : Result) : require64 s r = r := require64_of_kernelMode s hk r
    constructor
    · rw [show exec (.ldl base rt offset) s = _ from hrun _]
      exact writesReg_retireLoad hread (eq_word64_of_toNat
        ((toNat_mergeLeft64 b hb _ _).trans (congrArg (· * _ + _) hleft)))
    · rw [show exec (.ldr base rt offset) s = _ from hrun _]
      exact writesReg_retireLoad hread (eq_word64_of_toNat
        ((toNat_mergeRight64 b hb _ _).trans (congrArg (_ + ·) hright)))
end

section
/-! The unaligned stores that complete in memory (43 R311, R327 to R330): the whole unit by one write, a part of it by a
run of byte writes that meets no fault. -/

namespace Sys2Proof.Machine

open Sys2Proof.Safety

theorem toNat_ushiftRight_bytes {n : Nat} (v : BitVec n) (b : Nat) : (v >>> (8 * b)).toNat = v.toNat / 256 ^ b := by
  rw [BitVec.toNat_ushiftRight, Nat.shiftRight_eq_div_pow, Nat.pow_mul]

theorem toNat_shiftLeft_bytes {n : Nat} (v : BitVec n) (b : Nat) :
    (v <<< (8 * b)).toNat = v.toNat * 256 ^ b % 2 ^ n := by
  rw [BitVec.toNat_shiftLeft, Nat.shiftLeft_eq, Nat.pow_mul]

/-- The low word of a register, as the value of a unit. -/
theorem toNat_zext_word (v : Word) : (zext v).toNat = v.toNat :=
  BitVec.toNat_setWidth_of_le (by decide)

theorem writeUnitBytes_whole {ea : DWord} {w : Width} {s : State} {pa : PAddr} (u : DWord)
    (ht : translate ea .store s = .ok pa) :
    writeUnitBytes ea w 0 (widthBytes w - 1) u s = storeAt ea (unitAddr pa w) w u s := by
  rw [writeUnitBytes, ht]
  exact if_pos ⟨rfl, rfl⟩

theorem writeUnitBytes_part {ea : DWord} {w : Width} {s : State} {pa : PAddr} {first last : Nat} (u : DWord)
    (ht : translate ea .store s = .ok pa) (hpart : ¬(first = 0 ∧ last = widthBytes w - 1)) :
    writeUnitBytes ea w first last u s =
      writeByteRun ea (unitAddr pa w) (widthBytes w) u first (last + 1 - first) s := by
  rw [writeUnitBytes, ht]
  exact if_neg hpart

section
variable {s : State} {ea : DWord} {pa : PAddr} {w : Width} {u : DWord} (hw : Memory.wf s.mem = true)
  (ht : translate ea .store s = .ok pa)
  (hm : ∀ j, j < widthBytes w → regionKindAt s.bus (pa.toNat - unitOffset ea w + j) = .memory)
include hw ht hm

/-- Where memory stands at the whole unit, its bytes `first .. last` are stored; `v` has the value that they have in
the unit's value `u`. -/
theorem stores_writeUnitBytes {first last n v : Nat} (hn : first + n = last + 1) (hlast : last < widthBytes w)
    (hv : ∀ i, i < n → u.toNat / 256 ^ (widthBytes w - 1 - first - i) % 256 = v / 256 ^ (n - 1 - i) % 256) :
    Stores (retireStore (writeUnitBytes ea w first last u s)) s ((unitAddr pa w).toNat + first) n v := by
  have hunit : pa.toNat - unitOffset ea w = (unitAddr pa w).toNat :=
    (Nat.eq_sub_of_add_eq (unitAddr_add_offset w ht)).symm
  rw [hunit] at hm
  by_cases hwhole : first = 0 ∧ last = widthBytes w - 1
  · obtain ⟨rfl, rfl⟩ := hwhole
    obtain rfl : n = widthBytes w := by omega
    rw [writeUnitBytes_whole u ht, storeAt_memory ea (unitAddr pa w) w u s (hm 0 (widthBytes_pos w))]
    refine stores_retire s _ _ _ _ rfl (bytesStored_writeBytes s _ _ _ _ (widthBytes_le w) (unitAddr_le pa w) hw rfl _
      fun i hi => ?_)
    have h := hv (widthBytes w - 1 - i) (by omega)
    rw [Nat.sub_zero, show widthBytes w - 1 - (widthBytes w - 1 - i) = i by omega] at h
    exact (truncateTo_byte w u i hi).trans h
  · obtain ⟨m, -, hrun, hstored⟩ := writeByteRun_memory ea u (n := widthBytes w) (k := n) (first := first) 0 hw
      (by omega) (unitAddr_le pa w) fun j hj => by rw [Nat.add_assoc]; exact hm _ (by omega)
    rw [writeUnitBytes_part u ht hwhole, show last + 1 - first = n + 0 by omega, hrun, writeByteRun]
    refine stores_retire s _ _ _ _ rfl (bytesStored_congr hstored fun i hi => ?_)
    rw [Nat.div_div_eq_div_mul, ← Nat.pow_add,
      show widthBytes w - first - n + (n - 1 - i) = widthBytes w - 1 - first - i by omega]
    exact hv i hi

/-- The left forms store the upper bytes of the register from the address on (43 R327, R329). -/
theorem stores_left :
    Stores (retireStore (writeUnitBytes ea w (unitOffset ea w) (widthBytes w - 1) u s)) s pa.toNat
      (widthBytes w - unitOffset ea w) u.toNat := by
  have hlt : unitOffset ea w < widthBytes w := Nat.mod_lt _ (widthBytes_pos w)
  have h := stores_writeUnitBytes (u := u) (v := u.toNat) hw ht hm (first := unitOffset ea w)
    (last := widthBytes w - 1) (n := widthBytes w - unitOffset ea w) (by omega) (by omega) fun i _ => by
      rw [Nat.sub_right_comm (widthBytes w) 1]
  rwa [unitOffset, unitAddr_add_offset w ht] at h

/-- The right forms store the lower bytes of the register up to the address (43 R328, R330). -/
theorem stores_right {v : Nat}
    (hu : u.toNat = v * 256 ^ (widthBytes w - 1 - unitOffset ea w) % 256 ^ widthBytes w) :
    Stores (retireStore (writeUnitBytes ea w 0 (unitOffset ea w) u s)) s (pa.toNat - unitOffset ea w)
      (unitOffset ea w + 1) v := by
  have hlt : unitOffset ea w < widthBytes w := Nat.mod_lt _ (widthBytes_pos w)
  have h := stores_writeUnitBytes (u := u) (v := v) hw ht hm (first := 0) (last := unitOffset ea w)
    (Nat.zero_add _) hlt fun i hi => by
      rw [hu, show widthBytes w - 1 - 0 - i = widthBytes w - 1 - unitOffset ea w + (unitOffset ea w - i) by omega,
        shifted_byte v (by omega)]
      rfl
  rwa [show (unitAddr pa w).toNat + 0 = pa.toNat - unitOffset ea w from
    Nat.eq_sub_of_add_eq (unitAddr_add_offset w ht)] at h

end

end Sys2Proof.Machine

open Sys2Proof Sys2Proof.Machine Sys2Proof.Safety

/-- Settles O28: the left forms move the register down to the bytes from the address on, the right forms move it up to
the bytes up to the address. -/
theorem unalignedStores_hold : Obligations.UnalignedStores := by
  intro s base rt offset pa hw ht
  constructor
  · intro b hm
    have hlow : (zext (s.regLow rt)).toNat = low32u (s.reg rt) := (toNat_zext_word _).trans (toNat_lowWord _)
    constructor
    · rw [← hlow, ← toNat_ushiftRight_bytes]
      exact stores_left (w := .word) hw ht hm
    · refine stores_right (w := .word) hw ht hm ?_
      rw [toNat_zext_word, ← toNat_lowWord]
      exact toNat_shiftLeft_bytes ..
  · intro b hk hm
    have hrun (r : Result) : require64 s r = r := require64_of_kernelMode s hk r
    constructor
    · rw [show exec (.sdl base rt offset) s = _ from hrun _, ← toNat_ushiftRight_bytes]
      exact stores_left (w := .dword) hw ht hm
    · rw [show exec (.sdr base rt offset) s = _ from hrun _]
      exact stores_right (w := .dword) hw ht hm (toNat_shiftLeft_bytes ..)
end

section
/-! The moves from CP0, ERET, the traps and the encodings of the coprocessors 1 to 3 (44 R350 to R367, R372 to R385):
`Cp0.read` in the terms of the statements, the comparisons of the traps as integers, and the one way in which each
kind of instruction ends. -/

namespace Sys2Proof.Machine

open Sys2Proof.Safety

-- The CP0 registers as MFC0 and DMFC0 read them (10 R40, R68).

/-- The sign extension of a word whose upper half is 0 (PRId, 10 R62). -/
theorem sext_setWidth_half (v : BitVec 16) : sext (v.setWidth 32) = v.setWidth 64 := by
  have hmsb : (v.setWidth 32).msb = false := by
    rw [BitVec.msb_setWidth, BitVec.getLsbD_of_ge v 31 (by decide)]
    rfl
  rw [sext, BitVec.signExtend_eq_setWidth_of_msb_false hmsb, BitVec.setWidth_setWidth (by decide)]

/-- The 32 register numbers, each with the value that a read of it gives. -/
def readValues (c : Cp0) : List (RegNum × DWord) :=
  let wide : Word → DWord := fun w => word64 w.toInt
  [(0, wide c.index), (1, wide c.random), (2, c.entryLo0), (3, c.entryLo1), (4, c.context),
   (5, wide c.pageMask), (6, wide c.wired), (7, 0), (8, c.badVAddr), (9, wide c.count),
   (10, c.entryHi), (11, wide c.compare), (12, wide c.status), (13, wide c.cause), (14, c.epc),
   (15, BitVec.ofNat 64 Config.prid16.toNat), (16, wide c.config), (17, wide c.llAddr), (18, 0),
   (19, 0), (20, c.xContext), (21, 0), (22, 0), (23, 0), (24, 0), (25, 0), (26, 0), (27, 0),
   (28, wide c.tagLo), (29, wide c.tagHi), (30, c.errorEpc), (31, 0)]

theorem read_of_mem_readValues {c : Cp0} {n : RegNum} {v : DWord} (h : (n, v) ∈ readValues c) : c.read n = v := by
  have hwide (w : Word) : word64 w.toInt = sext w := (sext_eq_word64 w (by decide)).symm
  have key : ∀ p ∈ readValues c, c.read p.1 = p.2 := by
    simp [readValues, Cp0.read, hwide, sext_setWidth_half]
  exact key _ h

-- The comparisons of the conditional traps (44 R353 to R363).

theorem ule_simm_eq_decide (imm : BitVec 16) (v : DWord) :
    (simm imm).ule v = decide (imm.toInt % 2 ^ 64 ≤ (v.toNat : Int)) := by
  rw [BitVec.ule_eq_decide, ← toNat_simm]
  exact decide_eq_decide.mpr Nat.cast_le.symm

theorem ult_simm_eq_decide (v : DWord) (imm : BitVec 16) :
    v.ult (simm imm) = decide ((v.toNat : Int) < imm.toInt % 2 ^ 64) := by
  rw [BitVec.ult_eq_decide, ← toNat_simm]
  exact decide_eq_decide.mpr Nat.cast_lt.symm

theorem eq_simm_iff (v : DWord) (imm : BitVec 16) : v = simm imm ↔ v.toInt = imm.toInt := by
  rw [← toInt_simm, BitVec.toInt_inj]

-- How a conditional trap and an ERET end.

theorem enters_or_onlyAdvances_trapIf (s : State) (c : Bool) :
    (c = true → Enters (trapIf c s) .trap s) ∧ (c = false → OnlyAdvances (trapIf c s) s) := by
  constructor
  case left => rintro rfl; exact enters_raise .trap s
  case right => rintro rfl; exact onlyAdvances_retire s

theorem returnFromException_cp0 (s : State) : (returnFromException s).cp0 =
    { s.cp0 with status := s.cp0.status &&& 0xFFFFFFFD#32 } :=
  congrArg (fun w => { s.cp0 with status := w }) (setField_exl_false s.cp0.status)

end Sys2Proof.Machine

open Sys2Proof Sys2Proof.Machine Sys2Proof.Safety

/-- Settles O40: `Cp0.read` gives what the statement's table (`readValues`) says, and both moves write that. -/
theorem moveFromCp0 : Obligations.MoveFromCp0 := by
  intro s rt n v hmem
  have hread : s.cp0.read n = v := read_of_mem_readValues hmem
  constructor
  · intro husable
    rw [show exec (.mfc0 rt n) s = _ from requireCp0_of_or s husable _]
    exact writesReg_retire _ _ _ _ (by rw [hread, sext_lowWord])
  · intro hkernel
    rw [show exec (.dmfc0 rt n) s = _ from requireCp0_of_or s (.inl hkernel) _]
    exact writesReg_require64 hkernel hread

/-- Settles O43: ERET is `returnFromException`, which changes Status, LLbit and the control flow alone. -/
theorem eretReturns : Obligations.EretReturns := by
  intro s husable
  exact ⟨returnFromException s, requireCp0_of_or s husable _, rfl, rfl, rfl, rfl, rfl, returnFromException_cp0 s,
    fun _ => rfl, ⟨rfl, rfl⟩, rfl, fun _ => rfl, rfl, rfl, rfl⟩

/-- Settles O44: each instruction is `trapIf` of its comparison, which is that of the integers. -/
theorem conditionalTraps : Obligations.ConditionalTraps := by
  intro s rs rt code imm a b traps
  have key : ∀ p ∈ traps, exec p.1 s = trapIf p.2 s := by
    simp only [traps, List.forall_mem_cons, List.not_mem_nil, false_implies, implies_true, and_true]
    refine ⟨?tge, ?tgeu, ?tlt, ?tltu, ?teq, ?tne, ?tgei, ?tgeiu, ?tlti, ?tltiu, ?teqi, ?tnei⟩
    case tge | tgeu | tlt | tltu | teq => rfl
    case tne => exact congrArg (trapIf · s) (bne_eq_decide_ne a b)
    case tgei => rw [← toInt_simm]; rfl
    case tgeiu => exact congrArg (trapIf · s) (ule_simm_eq_decide imm a)
    case tlti => rw [← toInt_simm]; rfl
    case tltiu => exact congrArg (trapIf · s) (ult_simm_eq_decide a imm)
    case teqi => exact congrArg (trapIf · s) (decide_eq_decide.mpr (eq_simm_iff a imm))
    case tnei =>
      exact congrArg (trapIf · s) ((bne_eq_decide_ne a _).trans (decide_eq_decide.mpr (eq_simm_iff a imm).not))
  intro p hp
  rw [key p hp]
  exact enters_or_onlyAdvances_trapIf s p.2

/-- Settles O45: each of these instructions is the raise of its exception, with no check before it. -/
theorem alwaysRaise : Obligations.AlwaysRaise := by
  intro s code cofun base rt offset
  refine ⟨enters_raise .syscall s, enters_raise .breakpoint s, ?coprocessors⟩
  case coprocessors =>
    simp only [List.forall_mem_cons, List.not_mem_nil, false_implies, implies_true, and_true]
    refine ⟨?cop1, ?cop2, ?cop3, ?lwc1, ?lwc2, ?ldc1, ?ldc2, ?swc1, ?swc2, ?sdc1, ?sdc2⟩
    case cop1 | lwc1 | ldc1 | swc1 | sdc1 => exact enters_raise (.coprocessorUnusable 1) s
    case cop2 | lwc2 | ldc2 | swc2 | sdc2 => exact enters_raise (.coprocessorUnusable 2) s
    case cop3 => exact enters_raise (.coprocessorUnusable 3) s
end

section
/-! The TLB instructions (45 R400 to R405): each one's meaning where CP0 is usable, an entry and the staging registers
as the fields of one another, and what a write of a slot leaves unchanged. -/

namespace Sys2Proof.Machine

open Sys2Proof.Safety

-- Fields and masks.

theorem bit_bitAt {n : Nat} (w : BitVec n) (i : Nat) : bit (bitAt w i) = getField w i 1 := by
  apply BitVec.eq_of_getLsbD_eq
  intro j hj
  obtain rfl : j = 0 := by omega
  rw [getLsbD_getField, bit, bitAt]
  cases w.getLsbD i <;> rfl

/-- A word without ones under a mask is its own part outside the mask. -/
theorem and_not_of_and_eq_zero {n : Nat} {w m : BitVec n} (h : w &&& m = 0#n) : w &&& ~~~m = w := by
  calc w &&& ~~~m = (w &&& m) ||| (w &&& ~~~m) := by rw [h, BitVec.zero_or]
    _ = w := by rw [← BitVec.and_or_distrib_left, BitVec.or_not_self, BitVec.and_allOnes]

/-- To clear the bits of a mask before setting them changes nothing. -/
theorem and_not_or {n : Nat} (w m : BitVec n) : (w &&& ~~~m) ||| m = w ||| m := by
  apply BitVec.eq_of_getLsbD_eq
  intro i hi
  rw [BitVec.getLsbD_or, BitVec.getLsbD_or, BitVec.getLsbD_and, BitVec.getLsbD_not, decide_eq_true hi, Bool.true_and]
  cases m.getLsbD i <;> simp

/-- Setting P of Index (45 R403). -/
theorem setField_probeFailure (w : Word) : setField w 31 1#1 = w ||| 0x80000000#32 :=
  and_not_or w 0x80000000#32

-- Composing an entry and decomposing it again (45 R405).

/-- The half that an EntryLo register composes, in the statements' terms. -/
theorem halfOf_eq (v : DWord) : halfOf v =
    { pfn := BitVec.ofNat 24 (v.toNat / 64)
      c := BitVec.ofNat 3 (v.toNat / 8)
      d := v.getLsbD 2
      v := v.getLsbD 1 } := by
  rw [halfOf, getField_eq_ofNat, getField_eq_ofNat]
  rfl

/-- The composed entry, in the statements' terms. -/
theorem composeEntry_eq (c : Cp0) : composeEntry c =
    { present := true
      r := BitVec.ofNat 2 (c.entryHi.toNat / 2 ^ 62)
      vpn2 := BitVec.ofNat 27 (c.entryHi.toNat / 2 ^ 13)
      mask := BitVec.ofNat 12 (c.pageMask.toNat / 2 ^ 13)
      asid := BitVec.ofNat 8 c.entryHi.toNat
      g := c.entryLo0.getLsbD 0 && c.entryLo1.getLsbD 0
      even := halfOf c.entryLo0
      odd := halfOf c.entryLo1 } := by
  rw [composeEntry, Cp0.region, Cp0.vpn2, Cp0.mask, Cp0.asid, getField_eq_ofNat, getField_eq_ofNat, getField_eq_ofNat,
    getField_eq_ofNat, pow_zero, Nat.div_one]
  rfl

/-- The fields that TLBR puts into the staging registers, as numbers. -/
theorem decomposeEntry_eq (c : Cp0) (e : TlbEntry) : decomposeEntry c e =
    { c with
      entryHi := BitVec.ofNat 64 (e.r.toNat * 2 ^ 62 + e.vpn2.toNat * 2 ^ 13 + e.asid.toNat)
      pageMask := BitVec.ofNat 32 (e.mask.toNat * 2 ^ 13)
      entryLo0 := BitVec.ofNat 64 (e.even.pfn.toNat * 64 + e.even.c.toNat * 8 + e.even.d.toNat * 4 +
        e.even.v.toNat * 2 + e.g.toNat)
      entryLo1 := BitVec.ofNat 64 (e.odd.pfn.toNat * 64 + e.odd.c.toNat * 8 + e.odd.d.toNat * 4 +
        e.odd.v.toNat * 2 + e.g.toNat) } := by
  rw [decomposeEntry, entryHiOf_eq, pageMaskOf_eq, entryLoOf_eq, entryLoOf_eq]

/-- EntryLo of its own half and its own G bit: the register without its reserved bits. -/
theorem entryLoOf_halfOf (v : DWord) : entryLoOf (halfOf v) (bitAt v 0) = v &&& 0x3FFFFFFF#64 := by
  rw [entryLoOf, halfOf]
  dsimp only
  rw [bit_bitAt, bit_bitAt, bit_bitAt, setField_getField, setField_getField, setField_getField, setField_getField,
    setField_getField, BitVec.setWidth_eq, BitVec.zero_and, BitVec.zero_or]
  simp only [BitVec.and_or_distrib_right, BitVec.and_assoc, ← BitVec.and_or_distrib_left]
  rfl

/-- Where an EntryLo register has no reserved bit, the entry's half and its G bit give it back. -/
theorem entryLoOf_halfOf_self {v : DWord} (h : v &&& 0xFFFFFFFFC0000000#64 = 0#64) :
    entryLoOf (halfOf v) (bitAt v 0) = v :=
  (entryLoOf_halfOf v).trans (and_not_of_and_eq_zero h)

/-- EntryLo with G = 0 is EntryLo with any G, without bit 0. -/
theorem entryLoOf_false (h : TlbHalf) (g : Bool) : entryLoOf h false = entryLoOf h g &&& 0xFFFFFFFFFFFFFFFE#64 := by
  rw [entryLoOf, entryLoOf, ← setField_setField_same _ 0 (bit g)]
  exact setField_zero _ 0 1

section
variable {c : Cp0} (h : Cp0Inv c)
include h

theorem entryHi_decompose_compose : (decomposeEntry c (composeEntry c)).entryHi = c.entryHi :=
  (write_entryHi_bits c.entryHi).trans (and_not_of_and_eq_zero h.entryHi)

theorem pageMask_decompose_compose : (decomposeEntry c (composeEntry c)).pageMask = c.pageMask := by
  obtain ⟨m, -, hm⟩ := (pageMask_mem_iff _).mp h.pageMask
  change pageMaskOf (getField c.pageMask 13 12) = c.pageMask
  rw [← hm]
  exact congrArg pageMaskOf (getField_setField_same 0#32 13 m (by decide))

end

-- The instructions where CP0 is usable.

theorem indexField_eq (c : Cp0) : c.indexField = c.index.toNat % 64 := toNat_lowField6 _

theorem randomField_eq (c : Cp0) : c.randomField = c.random.toNat % 64 := toNat_lowField6 _

theorem wiredField_eq (c : Cp0) : c.wiredField = c.wired.toNat % 64 := toNat_lowField6 _

section
variable {s : State} (husable : s.cp0.kernelMode = true ∨ s.cp0.cu0 = true)
include husable

theorem exec_tlbr_of_some {e : TlbEntry} (he : s.tlb[s.cp0.index.toNat % 64]? = some e) :
    exec .tlbr s = retire (s.setCp0 (decomposeEntry s.cp0 e)) := by
  rw [show exec .tlbr s = _ from requireCp0_of_or s husable _, indexField_eq, he]

theorem exec_tlbr_of_none (hnone : s.tlb[s.cp0.index.toNat % 64]? = none) : exec .tlbr s = retire s := by
  rw [show exec .tlbr s = _ from requireCp0_of_or s husable _, indexField_eq, hnone]

theorem exec_tlbwi : exec .tlbwi s = retire (s.setTlb (s.cp0.index.toNat % 64) (composeEntry s.cp0)) := by
  rw [show exec .tlbwi s = _ from requireCp0_of_or s husable _, indexField_eq]

theorem exec_tlbwr : exec .tlbwr s = retire ((s.setTlb (s.cp0.random.toNat % 64) (composeEntry s.cp0)).setCp0
    { s.cp0 with random := BitVec.ofNat 32 (if s.cp0.random.toNat % 64 ≤ s.cp0.wired.toNat % 64
      then s.tlbSize - 1 else s.cp0.random.toNat % 64 - 1) }) := by
  rw [show exec .tlbwr s = _ from requireCp0_of_or s husable _, Cp0.advanceRandom, randomField_eq, wiredField_eq]

theorem exec_tlbp_of_some {n : Nat} {e : TlbEntry}
    (hf : firstMatch s.cp0.region s.cp0.vpn2 s.cp0.asid 0 s.tlb = some (n, e)) :
    exec .tlbp s = retire (s.setCp0 { s.cp0 with index := BitVec.ofNat 32 n }) := by
  rw [show exec .tlbp s = _ from requireCp0_of_or s husable _, hf]
  rfl

theorem exec_tlbp_of_none (hf : firstMatch s.cp0.region s.cp0.vpn2 s.cp0.asid 0 s.tlb = none) :
    exec .tlbp s = retire (s.setCp0 { s.cp0 with index := setField s.cp0.index 31 1#1 }) := by
  rw [show exec .tlbp s = _ from requireCp0_of_or s husable _, hf]
  rfl

end

/-- What a write of a slot leaves beside the CP0 registers `c` (45 R401, R402). -/
theorem tlbWrite_retire (s : State) (n : Nat) (e : TlbEntry) (c : Cp0) :
    ∃ t, retire ((s.setTlb n e).setCp0 c) = .next t ∧ t.tlb = s.tlb.set n e ∧ t.cp0 = c ∧ SameRegs s t ∧
      SameHiLo s t ∧ t.llbit = s.llbit ∧ SameMemory s t ∧ SameBus s t ∧ Advances s t :=
  ⟨_, rfl, rfl, rfl, fun _ => rfl, ⟨rfl, rfl⟩, rfl, fun _ => rfl, ⟨rfl, rfl, rfl⟩, rfl, rfl, rfl, rfl⟩

end Sys2Proof.Machine

open Sys2Proof Sys2Proof.Machine Sys2Proof.Safety

/-- Settles O46: TLBR decomposes the entry at Index, and only retires where there is none. -/
theorem tlbReadIndexed : Obligations.TlbReadIndexed := by
  intro s husable
  constructor
  · intro lo e he
    rw [exec_tlbr_of_some husable he]
    exact writesCp0_retire s _ _ (decomposeEntry_eq s.cp0 e)
  · intro hsize
    rw [exec_tlbr_of_none husable (List.getElem?_eq_none hsize)]
    exact onlyAdvances_retire s

/-- Settles O47: both write the composed entry, and `tlbWrite_retire` says what else is left; a write of a slot past
the last one is the `List.set` that changes nothing. -/
theorem tlbWrites : Obligations.TlbWrites := by
  intro s husable c half entry
  have hentry : composeEntry c = entry := by rw [composeEntry_eq, halfOf_eq, halfOf_eq]
  rw [exec_tlbwi husable, exec_tlbwr husable, ← hentry]
  exact ⟨tlbWrite_retire s _ _ c, tlbWrite_retire s _ _ _⟩

/-- Settles O48: `hit` is `matchesPage` of EntryHi's fields, and Index takes the first match's number. -/
theorem tlbProbe : Obligations.TlbProbe := by
  intro s husable hit
  have hhit (e : TlbEntry) : hit e ↔ e.matchesPage s.cp0.region s.cp0.vpn2 s.cp0.asid = true := by
    have hmatch := matchesPage_iff e s.cp0.region s.cp0.vpn2 s.cp0.asid
    simp +contextual only [Cp0.vpn2, getLsbD_getField, decide_true, Bool.true_and] at hmatch
    exact hmatch.symm
  refine ⟨fun n e hn he hfirst => ?found, fun hno => ?missed⟩
  case found =>
    rw [exec_tlbp_of_some husable (firstMatch_eq_some_of_first hn ((hhit e).mp he)
      fun m e' hm he' h => hfirst m e' hm he' ((hhit e').mpr h))]
    exact writesCp0_retire s _ _ rfl
  case missed =>
    rw [exec_tlbp_of_none husable (firstMatch_eq_none.mpr fun e he => by simpa [hhit] using hno e he)]
    exact writesCp0_retire s _ _ (by rw [setField_probeFailure])

/-- Settles O49: the TLBR reads the slot that the TLBWI wrote, so the registers become the decomposed composed entry,
whose G is the conjunction of the two G bits. -/
theorem tlbWriteThenRead : Obligations.TlbWriteThenRead := by
  intro s hinv husable hslot
  have hcp0 := hinv.cp0
  obtain ⟨t, hwrite, htlb, hc, -⟩ := tlbWrite_retire s (s.cp0.index.toNat % 64) (composeEntry s.cp0) s.cp0
  have hread : t.tlb[t.cp0.index.toNat % 64]? = some (composeEntry s.cp0) := by
    rw [htlb, hc, List.getElem?_set_self hslot]
  refine ⟨t, _, (exec_tlbwi husable).trans hwrite, exec_tlbr_of_some (hc ▸ husable) hread, ?_⟩
  rw [sequence_cp0, setCp0_cp0, hc]
  refine ⟨entryHi_decompose_compose hcp0, pageMask_decompose_compose hcp0, fun hagree => ?agree,
    fun hdiffer => ?differ⟩
  case agree =>
    have hg : (composeEntry s.cp0).g = bitAt s.cp0.entryLo0 0 :=
      (congrArg (bitAt s.cp0.entryLo0 0 && ·) hagree.symm).trans (Bool.and_self _)
    have hg' : (composeEntry s.cp0).g = bitAt s.cp0.entryLo1 0 := hg.trans hagree
    exact ⟨(congrArg _ hg).trans (entryLoOf_halfOf_self hcp0.entryLo0),
      (congrArg _ hg').trans (entryLoOf_halfOf_self hcp0.entryLo1)⟩
  case differ =>
    have hand : ∀ a b : Bool, a ≠ b → (a && b) = false := by decide
    have hg : (composeEntry s.cp0).g = false := hand _ _ hdiffer
    have hlow {v : DWord} (hv : v &&& 0xFFFFFFFFC0000000#64 = 0#64) :
        entryLoOf (halfOf v) (composeEntry s.cp0).g = v &&& 0xFFFFFFFFFFFFFFFE#64 := by
      rw [hg, entryLoOf_false _ (bitAt v 0), entryLoOf_halfOf_self hv]
    exact ⟨hlow hcp0.entryLo0, hlow hcp0.entryLo1⟩
end

section
/-! The modes and the interrupt condition read from Status and Cause (60 R470, R475), and what follows for the state
that entry leaves (60 R461). -/

namespace Sys2Proof.Machine

open Sys2Proof.Safety

-- The modes (60 R470).

theorem kernelMode_iff (c : Cp0) :
    c.kernelMode = true ↔ bitAt c.status 1 = true ∨ bitAt c.status 2 = true ∨ c.status.toNat / 8 % 4 = 0 := by
  rw [← ksu_eq_iff c 0 (by decide), Cp0.kernelMode, Bool.or_eq_true, Bool.or_eq_true, beq_iff_eq, or_assoc]
  rfl

theorem supervisorMode_iff (c : Cp0) :
    c.supervisorMode = true ↔ c.kernelMode = false ∧ c.status.toNat / 8 % 4 = 1 := by
  rw [← ksu_eq_iff c 1 (by decide), Cp0.supervisorMode, Bool.and_eq_true, Bool.not_eq_true', beq_iff_eq]

theorem userMode_iff (c : Cp0) : c.userMode = true ↔
    c.kernelMode = false ∧ (c.status.toNat / 8 % 4 = 2 ∨ c.status.toNat / 8 % 4 = 3) := by
  rw [← ksu_eq_iff c 2 (by decide), ← ksu_eq_iff c 3 (by decide), Cp0.userMode, Bool.and_eq_true,
    Bool.not_eq_true', Bool.or_eq_true, beq_iff_eq, beq_iff_eq]

/-- Of the four values of KSU, kernel mode takes 0, supervisor mode 1 and user mode the other two. -/
theorem supervisorMode_eq_not_userMode {c : Cp0} (h : c.kernelMode = false) :
    c.supervisorMode = !c.userMode := by
  have hksu : ¬c.status.toNat / 8 % 4 = 0 := fun h0 => by
    rw [(kernelMode_iff c).mpr (.inr (.inr h0))] at h
    cases h
  rw [Bool.eq_iff_iff, Bool.not_eq_true', ← Bool.not_eq_true, supervisorMode_iff, userMode_iff,
    and_iff_right h, and_iff_right h]
  omega

theorem kernelMode_congr_of_status {c c' : Cp0} (h : c'.status = c.status) : c'.kernelMode = c.kernelMode := by
  rw [Bool.eq_iff_iff, kernelMode_iff, kernelMode_iff, h]

-- The interrupt condition (60 R475).

theorem and_ne_zero_iff {n : Nat} (v w : BitVec n) :
    v &&& w ≠ 0#n ↔ ∃ i, i < n ∧ v.getLsbD i = true ∧ w.getLsbD i = true := by
  constructor
  · intro hne
    by_contra hnone
    refine hne (BitVec.eq_of_getLsbD_eq fun i hi => ?_)
    rw [BitVec.getLsbD_and, BitVec.getLsbD_zero, Bool.and_eq_false_imp]
    exact fun hv => Bool.eq_false_iff.mpr fun hw => hnone ⟨i, hi, hv, hw⟩
  · rintro ⟨i, -, hv, hw⟩ hzero
    have hbit := BitVec.getLsbD_and (x := v) (y := w) (i := i)
    rw [hzero, BitVec.getLsbD_zero, hv, hw] at hbit
    cases hbit

/-- `InterruptReady()` is the condition of the statements. -/
theorem interruptReady_iff (s : State) : s.cp0.interruptReady = true ↔ InterruptPending s := by
  have hline : s.cp0.ip &&& s.cp0.im ≠ 0#8 ↔
      ∃ i, i < 8 ∧ bitAt s.cp0.cause (8 + i) = true ∧ bitAt s.cp0.status (8 + i) = true := by
    rw [and_ne_zero_iff]
    refine exists_congr fun i => and_congr_right fun hi => ?_
    rw [Cp0.ip, Cp0.im, getLsbD_getField, getLsbD_getField, decide_eq_true hi, Bool.true_and, Bool.true_and]
    rfl
  rw [Cp0.interruptReady, Bool.and_eq_true, Bool.and_eq_true, Bool.and_eq_true, Bool.not_eq_true',
    Bool.not_eq_true', decide_eq_true_iff, hline, and_assoc, and_assoc]
  rfl

/-- With EXL = 1 no interrupt is ready. -/
theorem interruptReady_of_exl {c : Cp0} (h : c.exl = true) : c.interruptReady = false := by
  rw [Cp0.interruptReady, h, Bool.not_true, Bool.and_false, Bool.false_and, Bool.false_and]

/-- A ready interrupt is all that its step takes (10 R80). -/
theorem step_of_interruptReady {s : State} (h : s.cp0.interruptReady = true) :
    step s = thenTick (raise .interrupt s) :=
  if_pos h

-- Status after entry (60 R461).

theorem enter_ksu (c : Cp0) (e : Exn) (pc : DWord) (slot : Bool) : (c.enter e pc slot).ksu = c.ksu := by
  rw [Cp0.ksu, enter_status, getField_setField_of_disjoint _ _ _ _ _ (by decide)]
  rfl

end Sys2Proof.Machine

open Sys2Proof Sys2Proof.Machine Sys2Proof.Safety

/-- Settles O53: `entered_takeException` gives each field of `Entered`. -/
theorem exceptionEntry : Obligations.ExceptionEntry := entered_takeException

/-- Settles O54: EXL alone puts the handler in kernel mode with no interrupt ready; entry changes no other bit of
Status, so clearing EXL gives back the old Status where EXL was 0. -/
theorem handlerRunsInKernelMode : Obligations.HandlerRunsInKernelMode := by
  intro e s t
  have ht : Entered e s t := entered_takeException e s
  refine ⟨ht.exl, kernelMode_of_exl ht.exl, interruptReady_of_exl ht.exl, enter_ksu .., ht.statusRest 0 (by decide),
    fun hexl => ?_⟩
  have hstatus : (returnFromException t).cp0.status = s.cp0.status := setExl_false_enter_status hexl ..
  exact ⟨hstatus, kernelMode_congr_of_status hstatus⟩

/-- Settles O6: the condition of the statement is `interruptReady` (`interruptReady_iff`), which the step asks first. -/
theorem interruptTakenFirst : Obligations.InterruptTakenFirst := by
  constructor
  · intro s hpending
    exact ⟨takeException .interrupt s, _, step_of_interruptReady ((interruptReady_iff s).mpr hpending),
      entered_takeException .interrupt s, ticked_tick _⟩
  · intro s hnot
    exact Bool.eq_false_iff.mpr fun hready => hnot ((interruptReady_iff s).mp hready)

/-- Settles O9: `ticked_tick` says it of the state that the tick leaves. -/
theorem tickRule : Obligations.TickRule := fun s => ⟨_, rfl, ticked_tick s⟩

/-- Settles O52: each mode is its condition on EXL, ERL and the number in KSU. -/
theorem modesFromStatus : Obligations.ModesFromStatus :=
  fun c => ⟨kernelMode_iff c, supervisorMode_iff c, userMode_iff c, supervisorMode_eq_not_userMode⟩
end

section
/-! What the host does between steps (60 R476; 70 R500, R502): the interrupt lines write the field IP7 to IP2 of Cause
and nothing else, and reset and the lines keep the invariant. -/

namespace Sys2Proof.Machine

/-- The field IP7 to IP2 of Cause after a write, bit by bit. -/
theorem bitAt_setField_hwPending (cause : Word) (v : BitVec 6) (i : Nat) :
    bitAt (setField cause 10 v) i = if 10 ≤ i ∧ i ≤ 15 then v.getLsbD (i - 10) else bitAt cause i := by
  split
  case isTrue hin =>
    have hi : i < 32 := by omega
    rw [bitAt, getLsbD_setField, if_pos (by omega), decide_eq_true hi, Bool.true_and]
  case isFalse hout => exact bitAt_setField_of_disjoint _ _ _ _ (by omega)

/-- Bit `i` of Cause, for one of the lines, as a bit of their field. -/
theorem getLsbD_hwPending (cause : Word) {i : Nat} (h : 10 ≤ i ∧ i ≤ 15) :
    (getField cause 10 6).getLsbD (i - 10) = bitAt cause i := by
  have hlen : i - 10 < 6 := by omega
  rw [getLsbD_getField, decide_eq_true hlen, Bool.true_and, Nat.add_sub_cancel' h.1]
  rfl

/-- The bit of the host's mask that names line `i` of Cause. -/
theorem getLsbD_hwMask (mask : BitVec 8) {i : Nat} (h : 10 ≤ i ∧ i ≤ 15) :
    (getField mask 2 6).getLsbD (i - 10) = mask.getLsbD (i - 8) := by
  have hlen : i - 10 < 6 := by omega
  have hbit : 2 + (i - 10) = i - 8 := by omega
  rw [getLsbD_getField, decide_eq_true hlen, Bool.true_and, hbit]

theorem bitAt_setHwPending (mask : BitVec 8) (s : State) (i : Nat) : bitAt (setHwPending mask s).cp0.cause i =
    (bitAt s.cp0.cause i || (decide (10 ≤ i ∧ i ≤ 15) && mask.getLsbD (i - 8))) := by
  refine (bitAt_setField_hwPending _ _ _).trans ?_
  split
  case isTrue hin =>
    rw [BitVec.getLsbD_or, getLsbD_hwPending _ hin, getLsbD_hwMask _ hin, decide_eq_true hin, Bool.true_and]
  case isFalse hout => rw [decide_eq_false hout, Bool.false_and, Bool.or_false]

theorem bitAt_clearHwPending (mask : BitVec 8) (s : State) (i : Nat) :
    bitAt (clearHwPending mask s).cp0.cause i =
      (bitAt s.cp0.cause i && !(decide (10 ≤ i ∧ i ≤ 15) && mask.getLsbD (i - 8))) := by
  refine (bitAt_setField_hwPending _ _ _).trans ?_
  split
  case isTrue hin =>
    have hlen : i - 10 < 6 := by omega
    rw [BitVec.getLsbD_and, BitVec.getLsbD_not, getLsbD_hwPending _ hin, getLsbD_hwMask _ hin,
      decide_eq_true hin, decide_eq_true hlen, Bool.true_and, Bool.true_and]
  case isFalse hout => rw [decide_eq_false hout, Bool.false_and, Bool.not_false, Bool.and_true]

end Sys2Proof.Machine

namespace Sys2Proof.Safety

open Sys2Proof.Machine

/-- Reset is sound for every legal parameter and every memory in canonical form. -/
theorem inv_resetWith {n : Nat} {increment : Word} {m : Memory} (hn : 1 ≤ n ∧ n ≤ 64) (hinc : increment ≠ 0#32)
    (hm : Memory.wf m = true) (bus : List Region) (k : Nat) : Inv (State.resetWith n increment m bus k) where
  zero := Vector.getElem_replicate _
  tlbSize := by rwa [State.tlbSize, resetWith_tlb_length]
  countIncrement := hinc
  random := by
    rw [State.tlbSize, resetWith_tlb_length]
    exact ⟨Nat.le_refl 0, hn.1⟩
  slot := nofun
  mem := hm
  masks e he := by
    rw [eq_zero_of_mem_resetWith_tlb he]
    decide
  cp0 := cp0Inv_reset

/-- A write of the interrupt lines keeps a sound state sound. -/
theorem Inv.hwPending {s : State} (h : Inv s) (v : BitVec 6) :
    Inv (s.setCp0 { s.cp0 with cause := setField s.cp0.cause 10 v }) :=
  h.setCp0 (h.cp0.causeField 10 v (by decide) (by decide)) h.random

end Sys2Proof.Safety

open Sys2Proof Sys2Proof.Machine Sys2Proof.Safety

/-- Settles O60: a sound state has legal parameters and a canonical memory, which reset keeps; the lines write a field
of Cause that has no reserved bit. -/
theorem hostKeepsInvariant : Obligations.HostKeepsInvariant :=
  fun _ _ h => ⟨inv_resetWith h.tlbSize h.countIncrement h.mem _ _, h.hwPending _, h.hwPending _⟩

/-- Settles O56: both calls write the field IP7 to IP2 of Cause, whose bits are those of the statement. -/
theorem hostInterruptLines : Obligations.HostInterruptLines :=
  fun mask s => ⟨⟨rfl, bitAt_setHwPending mask s⟩, ⟨rfl, bitAt_clearHwPending mask s⟩⟩
end

section
/-! A step answers a next state (70 R516, R522, R523): the ways an instruction ends all do, and no arm of `exec` ends in
another way. -/

namespace Sys2Proof.Machine

/-- A result that is a next state: no fault and no refusal. -/
def IsNext (r : Result) : Prop := ∃ t, r = .next t

theorem isNext_next (t : State) : IsNext (.next t) := ⟨t, rfl⟩

variable {s : State}

-- The ways an instruction ends.

theorem isNext_raise (e : Exn) : IsNext (raise e s) := isNext_next _

theorem isNext_retire : IsNext (retire s) := isNext_next _

theorem isNext_ite {c : Prop} [Decidable c] {a b : Result} (ha : IsNext a) (hb : IsNext b) :
    IsNext (if c then a else b) := by
  split
  · exact ha
  · exact hb

theorem isNext_require64 {r : Result} (hr : IsNext r) : IsNext (require64 s r) := isNext_ite hr (isNext_raise _)

theorem isNext_requireCp0 {r : Result} (hr : IsNext r) : IsNext (requireCp0 s r) := isNext_ite hr (isNext_raise _)

theorem isNext_thenTick {r : Result} (hr : IsNext r) : IsNext (thenTick r) := by
  obtain ⟨t, rfl⟩ := hr
  exact isNext_next _

-- The shapes of the families.

theorem isNext_retireExact32 (i : RegNum) (n : Int) : IsNext (retireExact32 s i n) :=
  isNext_ite (isNext_raise _) isNext_retire

theorem isNext_retireExact64 (i : RegNum) (n : Int) : IsNext (retireExact64 s i n) :=
  isNext_ite (isNext_raise _) isNext_retire

theorem isNext_trapIf (c : Bool) : IsNext (trapIf c s) := isNext_ite (isNext_raise _) isNext_retire

theorem isNext_retireLoad (rt : RegNum) (f : DWord → DWord) (r : ReadResult) : IsNext (retireLoad rt f r) := by
  cases r with
  | ok v t => exact isNext_retire
  | raised e t => exact isNext_raise e

theorem isNext_retireStore (r : WriteResult) : IsNext (retireStore r) := by
  cases r with
  | ok t => exact isNext_retire
  | raised e t => exact isNext_raise e

theorem isNext_retireLinked (rt : RegNum) (f : DWord → DWord) (pa : PAddr) (r : ReadResult) :
    IsNext (retireLinked rt f pa r) := by
  cases r with
  | ok v t => exact isNext_retire
  | raised e t => exact isNext_raise e

theorem isNext_retireConditional (rt : RegNum) (r : WriteResult) : IsNext (retireConditional rt r) := by
  cases r with
  | ok t => exact isNext_retire
  | raised e t => exact isNext_raise e

theorem isNext_loadLinked (rt : RegNum) (f : DWord → DWord) (ea : DWord) (w : Width) :
    IsNext (loadLinked rt f ea w s) := by
  unfold loadLinked
  split
  · exact isNext_raise _
  · exact isNext_retireLinked _ _ _ _

theorem isNext_storeConditional (rt : RegNum) (ea : DWord) (w : Width) : IsNext (storeConditional rt ea w s) := by
  unfold storeConditional
  split
  · exact isNext_raise _
  · exact isNext_ite (isNext_retireConditional _ _) isNext_retire

theorem isNext_execTlbr : IsNext (execTlbr s) := by
  apply isNext_requireCp0
  split
  · exact isNext_retire
  · exact isNext_retire

/-- Every instruction ends in a next state; the cases are grouped by the way their meanings end. -/
theorem isNext_exec (i : Instr) (s : State) : IsNext (exec i s) := by
  cases i with
  -- Each retires, branches or raises its one exception, in every state.
  | addu | subu | addiu | slt | sltu | slti | sltiu | and | or | xor | nor | andi | ori | xori | lui
  | sll | srl | sra | sllv | srlv | srav | mfhi | mflo | mthi | mtlo | mult | multu
  | j | jal | jr | jalr | beq | bne | blez | bgtz | bltz | bgez | bltzal | bgezal
  | beql | bnel | blezl | bgtzl | bltzl | bgezl | bltzall | bgezall | sync | syscall | breakpoint
  | cop1 | cop2 | cop3 | lwc1 | lwc2 | ldc1 | ldc2 | swc1 | swc2 | sdc1 | sdc2 => exact isNext_next _
  -- 64-bit operations with one end.
  | daddu | dsubu | daddiu | dsll | dsrl | dsra | dsll32 | dsrl32 | dsra32 | dsllv | dsrlv | dsrav
  | dmult | dmultu => exact isNext_require64 (isNext_next _)
  -- Sums that may overflow.
  | add | sub | addi => exact isNext_retireExact32 _ _
  | dadd | dsub | daddi => exact isNext_require64 (isNext_retireExact64 _ _)
  -- Divisions: a zero divisor, the overflow of the signed forms, the quotient.
  | div => exact isNext_ite (isNext_next _) (isNext_ite (isNext_next _) (isNext_next _))
  | divu => exact isNext_ite (isNext_next _) (isNext_next _)
  | ddiv => exact isNext_require64 (isNext_ite (isNext_next _) (isNext_ite (isNext_next _) (isNext_next _)))
  | ddivu => exact isNext_require64 (isNext_ite (isNext_next _) (isNext_next _))
  -- Loads and stores, whatever translation and the bus answer.
  | lb | lbu | lh | lhu | lw | lwl | lwr => exact isNext_retireLoad _ _ _
  | lwu | ld | ldl | ldr => exact isNext_require64 (isNext_retireLoad _ _ _)
  | sb | sh | sw | swl | swr => exact isNext_retireStore _
  | sd | sdl | sdr => exact isNext_require64 (isNext_retireStore _)
  | ll => exact isNext_loadLinked _ _ _ _
  | lld => exact isNext_require64 (isNext_loadLinked _ _ _ _)
  | sc => exact isNext_storeConditional _ _ _
  | scd => exact isNext_require64 (isNext_storeConditional _ _ _)
  -- Traps.
  | tge | tgeu | tlt | tltu | teq | tne | tgei | tgeiu | tlti | tltiu | teqi | tnei => exact isNext_trapIf _
  -- The COP0 class.
  | cache | mfc0 | mtc0 | eret | tlbwi | tlbwr | tlbp => exact isNext_requireCp0 (isNext_next _)
  | dmfc0 | dmtc0 => exact isNext_requireCp0 (isNext_require64 (isNext_next _))
  | tlbr => exact isNext_execTlbr

/-- A step is the interrupt entry, an instruction or the exception of its fetch, each a next state, and the tick. -/
theorem isNext_step (s : State) : IsNext (step s) := by
  unfold step
  split
  case isTrue => exact isNext_thenTick (isNext_raise _)
  case isFalse =>
    split
    · exact isNext_thenTick (isNext_exec _ _)
    · exact isNext_thenTick (isNext_raise _)

end Sys2Proof.Machine

open Sys2Proof Sys2Proof.Machine

/-- Settles O10: every instruction and every exception ends in a next state, and the tick keeps it one. -/
theorem everyStepAnswers : Obligations.EveryStepAnswers := isNext_step
end
